-- ==== Sys2Proof/Word.lean ====
section
/-! DEFINITION. The value types of A4CORE: bytes, 16-bit and 32-bit patterns, and exact rationals. -/

namespace Sys2Proof

/-- A byte of a stream (spec/10_state.md R38: a byte is 8 bits); also an opcode (spec/30_encoding.md R91). -/
abbrev Byte := BitVec 8

/-- A pixel channel or the denominator: 16 bits, unsigned (spec/00_scope.md R9, CHW and DENW). -/
abbrev Half := BitVec 16

/-- A bus value, a command word, a packed word or a quantised register: 32 bits
(spec/00_scope.md R9, BUSW and QW; spec/30_encoding.md R91, R100). -/
abbrev Word := BitVec 32

/-- The numeric type the spec writes Q: exact rational numbers (spec/40_numerics.md R120). -/
abbrev QNum := Rat

end Sys2Proof
end

