-- ==== Sys2Proof/Config.lean ====
section
/-! DEFINITION. What the spec leaves to an instance of A4CORE: the chroma table (spec/00_scope.md R9,
CHROMA_TABLE; spec/92_eei_decisions.md D4, OPEN). Every other parameter of R9 that concerns the core is
fixed by the spec and stands where it is used. -/

namespace Sys2Proof

/-- A chroma table: 16 rationals, T[0] to T[15], strictly increasing (spec/40_numerics.md R127). A list
that is not strictly increasing is no instance of the hardware (spec/93_implementation_defined.md U2), so
no value of this type holds one. The field's default is the spec's default table (R127), the one its test
vectors use; it has no authority (D4) and no step and no statement rests on it. -/
structure ChromaTable where
  /-- The entries, index 0 first. -/
  values : Vector QNum 16 :=
    #v[-35/100, -20/100, -15/100, -10/100, -77/1000, -55/1000, -33/1000, -11/1000,
       11/1000, 33/1000, 55/1000, 77/1000, 10/100, 15/100, 20/100, 35/100]
  /-- Strictly increasing. -/
  rising : values.toList.Pairwise (· < ·) := by decide +kernel
deriving DecidableEq, Repr, Inhabited

/-- The default table of spec/40_numerics.md R127. Used by tests on the spec's vectors only. -/
def ChromaTable.specDefault : ChromaTable where

/-- The table of this instance: OPEN in the spec, so a constant with no body. Nothing is known of it but
what its type says. DESIGN CHOICE, safe: log entry 2. -/
opaque Config.chromaTable : ChromaTable

end Sys2Proof
end

