-- ==== Sys2Proof/Machine/Numerics.lean ====
section
/-! DEFINITION. The pure functions of spec/40_numerics.md: rounding, clamping, the bit-field primitives,
and the chroma quantizer functions. None reads or writes state. -/

namespace Sys2Proof.Machine

open Sys2Proof

/-! ## Rounding and clamping -/

/-- Absolute value on Q (spec/00_scope.md R12). -/
def absNum (x : QNum) : QNum := if x < 0 then -x else x

/-- Round to the nearest integer, ties away from zero (spec/40_numerics.md R122). -/
def rnd (x : QNum) : Int :=
  if 0 ≤ x then (x + 1/2).floor else -((-x + 1/2).floor)

/-- `clamp(x, lo, hi)` on Q (spec/40_numerics.md R123). -/
def clampNum (x lo hi : QNum) : QNum := if x < lo then lo else if hi < x then hi else x

/-- `clamp(x, lo, hi)` on integers (spec/40_numerics.md R123). -/
def clampInt (x lo hi : Int) : Int := if x < lo then lo else if hi < x then hi else x

/-! ## Bit-field primitives -/

/-- `fitsu(N, V)` (spec/40_numerics.md R124). -/
def fitsu (n : Nat) (v : Int) : Bool := decide (0 ≤ v ∧ v < 2 ^ n)

/-- `fitss(N, V)` (spec/40_numerics.md R124). -/
def fitss (n : Nat) (v : Int) : Bool := decide (-(2 ^ (n - 1)) ≤ v ∧ v < 2 ^ (n - 1))

/-- The mask (2^N - 1) x 2^lsb of a field (spec/40_numerics.md R125). -/
def fieldMask (n lsb : Nat) : Word := BitVec.ofNat 32 ((2 ^ n - 1) * 2 ^ lsb)

/-- `newu(w, N, lsb, V)` (spec/40_numerics.md R125), called only when `fitsu N V`. -/
def newu (w : Word) (n lsb : Nat) (v : Int) : Word :=
  (w &&& ~~~(fieldMask n lsb)) ||| BitVec.ofInt 32 (v * 2 ^ lsb)

/-- `news(w, N, lsb, V)` (spec/40_numerics.md R125), called only when `fitss N V`. -/
def news (w : Word) (n lsb : Nat) (v : Int) : Word :=
  (w &&& ~~~(fieldMask n lsb)) ||| BitVec.ofInt 32 ((v % 2 ^ n) * 2 ^ lsb)

/-- `sext_N(v)` of an unsigned N-bit value (spec/00_scope.md R11). -/
def sextN (n v : Nat) : Int := if v < 2 ^ (n - 1) then v else (v : Int) - 2 ^ n

/-- `getu(w, N, lsb)` (spec/40_numerics.md R126). -/
def getu (w : Word) (n lsb : Nat) : Nat := w.toNat / 2 ^ lsb % 2 ^ n

/-- `gets(w, N, lsb)` (spec/40_numerics.md R126). -/
def gets (w : Word) (n lsb : Nat) : Int := sextN n (getu w n lsb)

/-! ## The chroma quantizer functions -/

/-- `cq_value(i)`, for an index in 0..15 (spec/40_numerics.md R129). -/
def cqValue (t : ChromaTable) (i : Fin 16) : QNum := t.values[i]

/-- The scan behind `cqIndex`: `best` is the nearest entry so far, and a later entry replaces it only
when it is strictly nearer, so that a tie keeps the lower index (spec/40_numerics.md R128). -/
def cqScan (t : ChromaTable) (x : QNum) : List (Fin 16) → Fin 16 → Fin 16
  | [], best => best
  | i :: rest, best =>
    cqScan t x rest (if absNum (x - cqValue t i) < absNum (x - cqValue t best) then i else best)

/-- `cq_index(x)`: the index of the nearest table value, the lower one on a tie (spec/40_numerics.md R128). -/
def cqIndex (t : ChromaTable) (x : QNum) : Fin 16 :=
  cqScan t x [1, 2, 3, 4, 5, 6, 7, 8, 9, 10, 11, 12, 13, 14, 15] 0

end Sys2Proof.Machine
end

