-- ==== Sys2Proof/Syntax.lean ====
section
/-! DEFINITION. The operations of A4CORE as data: block positions, the instructions (one constructor
per row of spec/opcode_table.json), and the command word split into its three fields. -/

namespace Sys2Proof

/-- A position in a 2x2 block (spec/00_scope.md R19): top-left (index 0), top-right (1), bottom-left (2),
bottom-right (3). It is the whole range of the operand field K (spec/30_encoding.md R92). -/
inductive Pos where
  | tl
  | tr
  | bl
  | br
deriving DecidableEq, Repr

/-- The 14 operations of spec/30_encoding.md R93. K is the only operand field (R92) and only CSCF and CSCI
have it, so every term of this type is a legal command. -/
inductive Instr where
  /-- No operation (spec/46_composite_system.md R200). -/
  | nop
  /-- Colour convert forward, PX[k] to CS[k] (spec/41_color_convert.md R150). -/
  | cscf (k : Pos)
  /-- Colour convert inverse, CS[k] to PX[k] (spec/41_color_convert.md R152). -/
  | csci (k : Pos)
  /-- Block transform forward, CS to CF (spec/42_block_transform.md R160). -/
  | btf
  /-- Block transform inverse, CF to CS (spec/42_block_transform.md R162). -/
  | bti
  /-- Quantise, CF to Q (spec/43_quantize.md R170). -/
  | qnt
  /-- Dequantise, Q to CF (spec/43_quantize.md R172). -/
  | dqn
  /-- Pack, Q to W (spec/44_pack.md R180). -/
  | pack
  /-- Unpack, W to Q (spec/44_pack.md R182). -/
  | unpk
  /-- Serialise, W to OFIFO (spec/45_serialize.md R190). -/
  | ser
  /-- Deserialise, IFIFO to W (spec/45_serialize.md R192). -/
  | des
  /-- Encode one block, PX to OFIFO (spec/46_composite_system.md R203). -/
  | encb
  /-- Decode one block, IFIFO to PX (spec/46_composite_system.md R204). -/
  | decb
  /-- Soft reset (spec/46_composite_system.md R201). -/
  | rst
deriving DecidableEq, Repr

/-- A command word split into the fields of spec/30_encoding.md R91, legal or not. -/
structure Command where
  /-- Bits 31:10, reserved. -/
  rsv : BitVec 22
  /-- Bits 9:8, the block position. -/
  k   : BitVec 2
  /-- Bits 7:0, the opcode. -/
  opc : Byte
deriving DecidableEq, Repr

/-- Why a command word is not legal (spec/30_encoding.md R94): the decoder's named rejections. The
machine answers all three with the same fault, IllegalCommand (R95). -/
inductive Illegal where
  /-- A bit of 31:10 is not 0. -/
  | reservedBits
  /-- Bits 7:0 are none of the 14 opcodes. -/
  | unknownOpcode
  /-- Bits 9:8 are not 0 and the opcode is neither CSCF nor CSCI. -/
  | unexpectedK
deriving DecidableEq, Repr

end Sys2Proof
end

