-- ==== Sys2Proof/Machine/State.lean ====
section
/-! DEFINITION. The state of A4CORE as plain data: every piece of state spec/10_state.md R20 names, and
beside it the model's own fields (the host's transactions, the core's answers, the instance's chroma
table). The state after reset, and why a step can stop. -/

namespace Sys2Proof.Machine

open Sys2Proof

/-- Four things, one for each block position (spec/00_scope.md R19). -/
structure Quad (α : Type) where
  tl : α
  tr : α
  bl : α
  br : α
deriving DecidableEq, Repr

/-- A pixel register PX[k] (spec/10_state.md R21). -/
structure Pixel where
  r : Half
  g : Half
  b : Half
deriving DecidableEq, Repr

/-- A colour-sample register CS[k] (spec/10_state.md R35). -/
structure Sample where
  y  : QNum
  pb : QNum
  pr : QNum
deriving DecidableEq, Repr

/-- The coefficient registers CF (spec/10_state.md R36). -/
structure Coeffs where
  a  : QNum
  b  : QNum
  c  : QNum
  d  : QNum
  pb : QNum
  pr : QNum
deriving DecidableEq, Repr

/-- The quantised registers Q, each 32 bits two's complement (spec/10_state.md R22). -/
structure Quant where
  a  : Word
  b  : Word
  c  : Word
  d  : Word
  pb : Word
  pr : Word
deriving DecidableEq, Repr

/-- The fields of STATUS (spec/10_state.md R33). The reserved bits 3:2 and 31:27 have no storage: they
read 0 and nothing writes them. -/
structure Status where
  /-- Bit 0: a fault was recorded; the core is in the abort state. -/
  err    : Bool
  /-- Bit 1: CSCI clamped at least one channel since reset. -/
  sat    : Bool
  /-- Bits 7:4: cause code of the recorded fault, 0 for none. -/
  cause  : BitVec 4
  /-- Bits 15:8: bits [7:0] of the command word whose operation faulted. -/
  eop    : Byte
  /-- Bits 23:16: opcode of the elementary operation that faulted. -/
  estage : Byte
  /-- Bits 26:24: information value of the fault. -/
  einfo  : BitVec 3
deriving DecidableEq, Repr

/-- One host transaction (spec/20_memory.md R60) or a hardware reset (spec/70_reset_and_hazards.md R250).
Only 32-bit bus accesses exist (R64), so no access carries a width. -/
inductive Transaction where
  /-- `MemRead(addr, 4)`. -/
  | read (addr : Nat)
  /-- `MemWrite(addr, 4, v)`. -/
  | write (addr : Nat) (v : Word)
  /-- `Feed(bytes)`. -/
  | feed (bytes : List Byte)
  /-- `Drain(n)`. -/
  | drain (n : Nat)
  /-- A hardware reset. -/
  | hreset
deriving DecidableEq, Repr

/-- What the core answers to a transaction (spec/20_memory.md R62, R63, R70). Feed and a hardware reset
have no answer. -/
inductive Answer where
  /-- `OKAY` to a bus write. -/
  | okay
  /-- `OKAY(v)` to a bus read. -/
  | value (v : Word)
  /-- `BUSERR`, which carries no data (R67). -/
  | busErr
  /-- The bytes a Drain returns. -/
  | bytes (bs : List Byte)
deriving DecidableEq, Repr

/-- The state of one A4CORE and its host. -/
structure State where
  /-- PX[0..3] (spec/10_state.md R21). -/
  px      : Quad Pixel
  /-- Q (spec/10_state.md R22). -/
  q       : Quant
  /-- W (spec/10_state.md R23). -/
  w       : Word
  /-- CS[0..3] (spec/10_state.md R35). -/
  cs      : Quad Sample
  /-- CF (spec/10_state.md R36). -/
  cf      : Coeffs
  /-- DEN (spec/10_state.md R34). -/
  den     : Half
  /-- STATUS (spec/10_state.md R33). -/
  status  : Status
  /-- IFIFO, next byte to be consumed first (spec/10_state.md R40). -/
  ififo   : List Byte
  /-- OFIFO, next byte to be drained first (spec/10_state.md R40). -/
  ofifo   : List Byte
  /-- The chroma table of the instance: a constant of the instance, not state of the spec's
  (spec/10_state.md R41); no step writes it. DESIGN CHOICE, safe: log entry 2. -/
  table   : ChromaTable
  /-- The host's transactions still to come, oldest first. The model's own field. DESIGN CHOICE: log entry 1. -/
  script  : List Transaction
  /-- The core's answers so far, oldest first. The model's own field. DESIGN CHOICE: log entry 1. -/
  answers : List Answer
deriving DecidableEq, Repr

/-- Why the machine would stop with a fault: it never does. Every fault of A4CORE is a record in STATUS
after which the machine goes on in the abort state (spec/60_exceptions.md R222, R224), so it is a next
state, and nothing is stuck (spec/93_implementation_defined.md section 2). The type has no constructor,
and nothing raises it. -/
inductive Fault where
deriving DecidableEq, Repr

/-- Why a step has no meaning. -/
inductive Refusal where
  /-- Raised by `exec` only, for an instruction that has no meaning yet. Safe. -/
  | notModelled (mnemonic : String)
  /-- Raised by the transaction Drain(n) with n greater than the number of bytes in OFIFO: the host never
  asks for it and the model has no such transaction (spec/20_memory.md R70;
  spec/93_implementation_defined.md I6, `refuse`). No instruction raises it. Safe. -/
  | drainBeyondOutput
deriving DecidableEq, Repr

/-! ## Reset values (spec/10_state.md R45) -/

/-- The same thing at all four positions. -/
def Quad.all {α : Type} (x : α) : Quad α := ⟨x, x, x, x⟩

/-- The machine right after a hardware reset (spec/10_state.md R45): every register 0, both FIFOs empty.
The model's own fields: nothing is outstanding, nothing was answered (log entry 1), and the table is the
instance's (log entry 2). -/
def State.reset : State where
  px      := Quad.all ⟨0, 0, 0⟩
  q       := ⟨0, 0, 0, 0, 0, 0⟩
  w       := 0
  cs      := Quad.all ⟨0, 0, 0⟩
  cf      := ⟨0, 0, 0, 0, 0, 0⟩
  den     := 0
  status  := ⟨false, false, 0, 0, 0, 0⟩
  ififo   := []
  ofifo   := []
  table   := Config.chromaTable
  script  := []
  answers := []

end Sys2Proof.Machine
end

