-- ==== Sys2Proof/Machine/Flags.lean ====
section
/-! DEFINITION. The two flags ERR and SAT and the STATUS word (spec/10_state.md R31, R33). -/

namespace Sys2Proof.Machine

open Sys2Proof

/-- The bit of a Bool. -/
def bit (b : Bool) : BitVec 1 := if b then 1 else 0

/-- STATUS as the host reads it (spec/10_state.md R33): EINFO [26:24], ESTAGE [23:16], EOP [15:8],
CAUSE [7:4], SAT [1], ERR [0], the other bits 0. -/
def Status.word (s : Status) : Word :=
  (0 : BitVec 5) ++ s.einfo ++ s.estage ++ s.eop ++ s.cause ++ (0 : BitVec 2) ++ bit s.sat ++ bit s.err

/-- Whether the clamp to 0..DEN changes the rounded channel value `n` (spec/41_color_convert.md R152). -/
def outOfRange (n : Int) (den : Half) : Bool := decide (n < 0 ∨ (den.toNat : Int) < n)

/-- SAT is set when `clamped`, and never cleared (spec/10_state.md R31). -/
def Status.noteClamp (s : Status) (clamped : Bool) : Status := { s with sat := s.sat || clamped }

end Sys2Proof.Machine
end

