-- ==== Sys2Proof/WellFormed.lean ====
section
/-! DEFINITION. Which command words are legal, as spec/30_encoding.md R94 words it: a predicate on the
three fields of a command, written without the decoder. A term of Instr needs no check: its one operand
is a Pos, which has exactly the four values of the field K. -/

namespace Sys2Proof

/-- The 14 opcodes of spec/30_encoding.md R93. -/
def legalOpcodes : List Byte :=
  [0x00, 0x01, 0x02, 0x03, 0x04, 0x05, 0x06, 0x07, 0x08, 0x09, 0x0A, 0x10, 0x11, 0xFF]

/-- The opcodes that take the operand K: CSCF and CSCI (spec/30_encoding.md R93). -/
def indexedOpcodes : List Byte := [0x01, 0x02]

/-- Bits 31:10 are 0 (spec/30_encoding.md R94). -/
def Command.reservedClear (c : Command) : Bool := c.rsv == 0

/-- Bits 7:0 are one of the 14 opcodes (spec/30_encoding.md R94). -/
def Command.opcodeKnown (c : Command) : Bool := legalOpcodes.contains c.opc

/-- Bits 9:8 are 0 unless the opcode is CSCF or CSCI (spec/30_encoding.md R94). -/
def Command.kAllowed (c : Command) : Bool := c.k == 0 || indexedOpcodes.contains c.opc

/-- Spec/30_encoding.md R94: all three conditions of a legal command word. -/
def Command.wellFormed (c : Command) : Bool := c.reservedClear && c.opcodeKnown && c.kAllowed

end Sys2Proof
end

