-- ==== Sys2Proof/Decode.lean ====
section
/-! DEFINITION. The command decoder (spec/30_encoding.md R91 to R95), total on every 32-bit word and
rejecting by name, and after it the encoder, written from the same table R93. -/

namespace Sys2Proof

/-! ## Fields -/

/-- The fields of a command word: RSV [31:10], K [9:8], OPC [7:0] (spec/30_encoding.md R91). -/
def Command.ofWord (v : Word) : Command where
  rsv := v.extractLsb' 10 22
  k   := v.extractLsb' 8 2
  opc := v.extractLsb' 0 8

/-- The word whose fields are those of `c` (spec/30_encoding.md R91). -/
def Command.toWord (c : Command) : Word := c.rsv ++ c.k ++ c.opc

/-- The field K as a block position: 0 tl, 1 tr, 2 bl, 3 br (spec/30_encoding.md R92, spec/00_scope.md R19). -/
def Pos.ofK (k : BitVec 2) : Pos :=
  match k.toNat with
  | 0 => .tl
  | 1 => .tr
  | 2 => .bl
  | _ => .br

/-- The field K of a block position (spec/30_encoding.md R92). -/
def Pos.toK : Pos → BitVec 2
  | .tl => 0
  | .tr => 1
  | .bl => 2
  | .br => 3

/-! ## Opcodes (spec/30_encoding.md R93) -/

/-- The opcode of an instruction (spec/30_encoding.md R93). -/
def opcodeOf : Instr → Byte
  | .nop    => 0x00
  | .cscf _ => 0x01
  | .csci _ => 0x02
  | .btf    => 0x03
  | .bti    => 0x04
  | .qnt    => 0x05
  | .dqn    => 0x06
  | .pack   => 0x07
  | .unpk   => 0x08
  | .ser    => 0x09
  | .des    => 0x0A
  | .encb   => 0x10
  | .decb   => 0x11
  | .rst    => 0xFF

/-- The instruction of an opcode, given its K field: none for the opcodes that R93 does not list. -/
def instrOfOpcode (opc : Byte) (k : BitVec 2) : Option Instr :=
  match opc.toNat with
  | 0x00 => some .nop
  | 0x01 => some (.cscf (Pos.ofK k))
  | 0x02 => some (.csci (Pos.ofK k))
  | 0x03 => some .btf
  | 0x04 => some .bti
  | 0x05 => some .qnt
  | 0x06 => some .dqn
  | 0x07 => some .pack
  | 0x08 => some .unpk
  | 0x09 => some .ser
  | 0x0A => some .des
  | 0x10 => some .encb
  | 0x11 => some .decb
  | 0xFF => some .rst
  | _    => none

/-- Whether the instruction takes the operand K (spec/30_encoding.md R93). -/
def takesK : Instr → Bool
  | .cscf _ => true
  | .csci _ => true
  | .nop | .btf | .bti | .qnt | .dqn | .pack | .unpk | .ser | .des | .encb | .decb | .rst => false

/-! ## Decoder -/

/-- Decode a command given as its fields; a command that is not legal is rejected by name
(spec/30_encoding.md R94, R95). -/
def Command.decode (c : Command) : Except Illegal Instr :=
  if c.rsv ≠ 0 then .error .reservedBits
  else
    match instrOfOpcode c.opc c.k with
    | none => .error .unknownOpcode
    | some i => if c.k ≠ 0 ∧ takesK i = false then .error .unexpectedK else .ok i

/-- Decode a command word (spec/30_encoding.md R90 step (2)). -/
def decode (v : Word) : Except Illegal Instr := (Command.ofWord v).decode

/-! ## Encoder -/

/-- The fields of the command of an instruction: RSV = 0, K the position or 0, OPC by R93. -/
def Command.ofInstr (i : Instr) : Command where
  rsv := 0
  k   :=
    match i with
    | .cscf k => k.toK
    | .csci k => k.toK
    | .nop | .btf | .bti | .qnt | .dqn | .pack | .unpk | .ser | .des | .encb | .decb | .rst => 0
  opc := opcodeOf i

/-- The command word of an instruction (spec/30_encoding.md R91, R93). -/
def encode (i : Instr) : Word := (Command.ofInstr i).toWord

/-! ## The host's probe -/

/-- The instruction read from the table word `w` of `nbits` bits, the bits above `nbits` being 0. A
command is one 32-bit bus value (spec/30_encoding.md R91, spec/20_memory.md R61), numbered as
spec/opcode_table.json numbers it, so no byte order enters. -/
def decodeTableWord (nbits w : Nat) : Option Instr :=
  match decode (BitVec.ofNat 32 (w % 2 ^ nbits)) with
  | .ok i => some i
  | .error _ => none

end Sys2Proof
end

