-- ==== Sys2Proof/Machine/Operands.lean ====
section
/-! DEFINITION. The operand forms of A4CORE: the position k of PX[k] and CS[k] (spec/30_encoding.md R92),
the register map of the bus (spec/20_memory.md R66), and reading and writing one register through it. -/

namespace Sys2Proof.Machine

open Sys2Proof

/-! ## The position operand -/

/-- The entry at position `k`. -/
def Quad.get {α : Type} (x : Quad α) : Pos → α
  | .tl => x.tl
  | .tr => x.tr
  | .bl => x.bl
  | .br => x.br

/-- The same four entries but for `v` at position `k`. -/
def Quad.set {α : Type} (x : Quad α) (k : Pos) (v : α) : Quad α :=
  match k with
  | .tl => { x with tl := v }
  | .tr => { x with tr := v }
  | .bl => { x with bl := v }
  | .br => { x with br := v }

/-- The value a fault of CSCF k or CSCI k records in EINFO: k (spec/60_exceptions.md R220). -/
def einfoOf (k : Pos) : BitVec 3 := k.toK.setWidth 3

/-! ## The register map -/

/-- A channel of a pixel register. -/
inductive Chan where
  | r
  | g
  | b
deriving DecidableEq, Repr

/-- A field of Q. -/
inductive QField where
  | a
  | b
  | c
  | d
  | pb
  | pr
deriving DecidableEq, Repr

/-- A bus register (spec/20_memory.md R66). -/
inductive Reg where
  | cmd
  | status
  | den
  | w
  | px (k : Pos) (c : Chan)
  | q (f : QField)
deriving DecidableEq, Repr

/-- The register mapped at a byte address: none for a misaligned address, an address above 0xFF and an
unmapped one (spec/20_memory.md R66, R67). -/
def regAt (addr : Nat) : Option Reg :=
  match addr with
  | 0x00 => some .cmd
  | 0x04 => some .status
  | 0x08 => some .den
  | 0x0C => some .w
  | 0x10 => some (.px .tl .r)
  | 0x14 => some (.px .tl .g)
  | 0x18 => some (.px .tl .b)
  | 0x1C => some (.px .tr .r)
  | 0x20 => some (.px .tr .g)
  | 0x24 => some (.px .tr .b)
  | 0x28 => some (.px .bl .r)
  | 0x2C => some (.px .bl .g)
  | 0x30 => some (.px .bl .b)
  | 0x34 => some (.px .br .r)
  | 0x38 => some (.px .br .g)
  | 0x3C => some (.px .br .b)
  | 0x40 => some (.q .a)
  | 0x44 => some (.q .b)
  | 0x48 => some (.q .c)
  | 0x4C => some (.q .d)
  | 0x50 => some (.q .pb)
  | 0x54 => some (.q .pr)
  | _    => none

/-- The channel `c` of a pixel. -/
def Pixel.get (p : Pixel) : Chan → Half
  | .r => p.r
  | .g => p.g
  | .b => p.b

/-- The same pixel but for `v` in the channel `c`. -/
def Pixel.set (p : Pixel) (c : Chan) (v : Half) : Pixel :=
  match c with
  | .r => { p with r := v }
  | .g => { p with g := v }
  | .b => { p with b := v }

/-- The field `f` of Q. -/
def Quant.get (q : Quant) : QField → Word
  | .a  => q.a
  | .b  => q.b
  | .c  => q.c
  | .d  => q.d
  | .pb => q.pb
  | .pr => q.pr

/-- The same Q but for `v` in the field `f`. -/
def Quant.set (q : Quant) (f : QField) (v : Word) : Quant :=
  match f with
  | .a  => { q with a := v }
  | .b  => { q with b := v }
  | .c  => { q with c := v }
  | .d  => { q with d := v }
  | .pb => { q with pb := v }
  | .pr => { q with pr := v }

/-- A quantised register as the integer it holds (spec/10_state.md R22). -/
def Quant.int (q : Quant) (f : QField) : Int := (q.get f).toInt

end Sys2Proof.Machine
end

