-- ==== Sys2Proof/Machine/Ops.lean ====
section
/-! DEFINITION. The named operations over State: one setter per register, the FIFOs, reading and writing a
bus register, taking a fault (spec/60_exceptions.md R222), running a list of stages to the first fault
(spec/46_composite_system.md R202), and the reset, which is the only way back from a fault (R226). -/

namespace Sys2Proof.Machine

open Sys2Proof

/-! ## Setters -/

def State.setPx (s : State) (x : Quad Pixel) : State := { s with px := x }
def State.setQ (s : State) (x : Quant) : State := { s with q := x }
def State.setW (s : State) (x : Word) : State := { s with w := x }
def State.setCs (s : State) (x : Quad Sample) : State := { s with cs := x }
def State.setCf (s : State) (x : Coeffs) : State := { s with cf := x }
def State.setDen (s : State) (x : Half) : State := { s with den := x }
def State.setStatus (s : State) (x : Status) : State := { s with status := x }
def State.setIfifo (s : State) (x : List Byte) : State := { s with ififo := x }
def State.setOfifo (s : State) (x : List Byte) : State := { s with ofifo := x }
def State.setScript (s : State) (x : List Transaction) : State := { s with script := x }

/-- The core answers `a` to the host. -/
def State.answer (s : State) (a : Answer) : State := { s with answers := s.answers ++ [a] }

/-! ## FIFOs (spec/00_scope.md R15) -/

/-- `OPush(b0, b1, b2, b3)`: append four bytes to OFIFO, b0 first. -/
def State.oPush (s : State) (b0 b1 b2 b3 : Byte) : State := s.setOfifo (s.ofifo ++ [b0, b1, b2, b3])

/-- `IPop4()`: the first four bytes and the rest; none when there are fewer than four. -/
def iPop4 : List Byte → Option ((Byte × Byte × Byte × Byte) × List Byte)
  | b0 :: b1 :: b2 :: b3 :: rest => some ((b0, b1, b2, b3), rest)
  | _ => none

/-! ## Bus registers -/

/-- The value a bus read of register `r` returns (spec/20_memory.md R62). -/
def State.readReg (s : State) : Reg → Word
  | .cmd    => 0
  | .status => s.status.word
  | .den    => s.den.setWidth 32
  | .w      => s.w
  | .px k c => ((s.px.get k).get c).setWidth 32
  | .q f    => s.q.get f

/-- The effect of a bus write of `v` to a register other than CMD, outside the abort state: STATUS ignores
it, DEN and the pixel channels keep v[15:0] (spec/20_memory.md R63). CMD has no storage
(spec/10_state.md R32). -/
def State.writeReg (s : State) (v : Word) : Reg → State
  | .cmd    => s
  | .status => s
  | .den    => s.setDen (v.setWidth 16)
  | .w      => s.setW v
  | .px k c => s.setPx (s.px.set k ((s.px.get k).set c (v.setWidth 16)))
  | .q f    => s.setQ (s.q.set f v)

/-! ## Faults (spec/60_exceptions.md) -/

/-- The causes of spec/60_exceptions.md R220. -/
inductive Cause where
  | fieldOverflow
  | badDenominator
  | illegalCommand
  | streamUnderrun
  | chromaIndexRange
deriving DecidableEq, Repr

/-- The cause codes of spec/60_exceptions.md R220. -/
def Cause.code : Cause → BitVec 4
  | .fieldOverflow    => 1
  | .badDenominator   => 2
  | .illegalCommand   => 3
  | .streamUnderrun   => 4
  | .chromaIndexRange => 5

/-- What `raise <Cause>(info)` hands to the fault entry (spec/00_scope.md R16). -/
structure Raise where
  cause : Cause
  info  : BitVec 3
deriving DecidableEq, Repr

/-- Fault entry (spec/60_exceptions.md R222): ERR, CAUSE, EOP, ESTAGE and EINFO are written, SAT keeps its
value, nothing else changes. -/
def State.takeFault (s : State) (eop estage : Byte) (r : Raise) : State :=
  s.setStatus
    { s.status with err := true, cause := r.cause.code, eop := eop, estage := estage, einfo := r.info }

/-! ## Running operations -/

/-- Run the stages in order, each on the state the ones before it left, and stop at the first that raises
a fault: the fault is recorded with that stage's opcode, on the state before that stage
(spec/46_composite_system.md R202, spec/60_exceptions.md R223). A single command is a list of one stage. -/
def runStages (eop : Byte) : List (Byte × (State → Except Raise State)) → State → State
  | [], s => s
  | (estage, op) :: rest, s =>
    match op s with
    | .ok s' => runStages eop rest s'
    | .error r => s.takeFault eop estage r

/-- A command other than RST: ignored in the abort state (spec/60_exceptions.md R224), else its stages run. -/
def runCommand (eop : Byte) (stages : List (Byte × (State → Except Raise State))) (s : State) :
    Host.Outcome State Fault Refusal :=
  if s.status.err then .next s else .next (runStages eop stages s)

/-! ## Reset -/

/-- A reset of the core (spec/10_state.md R45, spec/70_reset_and_hazards.md R250): every register and both
FIFOs take their reset values. The host's own record and the instance's table are not the core's. -/
def State.resetCore (s : State) : State :=
  { State.reset with table := s.table, script := s.script, answers := s.answers }

end Sys2Proof.Machine
end

