-- ==== Sys2Proof/Machine/Bus.lean ====
section
/-! DEFINITION. The host's transactions (spec/20_memory.md R60 to R70): bus reads and writes, dispatch of a
command written to CMD (spec/30_encoding.md R90), the two streams, and the hardware reset. Each takes the
execution of one instruction, `run`, as an argument; Machine/Step.lean supplies `exec`. -/

namespace Sys2Proof.Machine

open Sys2Proof

/-- Dispatch of the command word `v` (spec/30_encoding.md R90). A legal word runs its operation, which a
core in the abort state ignores unless it is RST (R90 (1), in `runCommand`). Any other word is ignored in the
abort state and raises IllegalCommand outside it, with EOP = ESTAGE = v[7:0] (spec/60_exceptions.md R221). -/
def dispatchCommand (run : Instr → State → Host.Outcome State Fault Refusal) (v : Word) (s : State) :
    Host.Outcome State Fault Refusal :=
  match decode v with
  | .ok i => run i s
  | .error _ =>
    if s.status.err then .next s
    else .next (s.takeFault (v.extractLsb' 0 8) (v.extractLsb' 0 8) ⟨.illegalCommand, 0⟩)

/-- `MemRead(addr, 4)` (spec/20_memory.md R62). -/
def busRead (addr : Nat) (s : State) : State :=
  match regAt addr with
  | none => s.answer .busErr
  | some r => s.answer (.value (s.readReg r))

/-- `MemWrite(addr, 4, v)` (spec/20_memory.md R63, R65). -/
def busWrite (run : Instr → State → Host.Outcome State Fault Refusal) (addr : Nat) (v : Word) (s : State) :
    Host.Outcome State Fault Refusal :=
  match regAt addr with
  | none => .next (s.answer .busErr)
  | some .cmd => dispatchCommand run v (s.answer .okay)
  | some r => if s.status.err then .next (s.answer .okay) else .next ((s.answer .okay).writeReg v r)

/-- `Feed(bytes)` (spec/20_memory.md R69). -/
def feed (bytes : List Byte) (s : State) : State := s.setIfifo (s.ififo ++ bytes)

/-- `Drain(n)` (spec/20_memory.md R70); more bytes than OFIFO holds is no transaction of the model. -/
def drain (n : Nat) (s : State) : Host.Outcome State Fault Refusal :=
  if n ≤ s.ofifo.length then
    .next ((s.setOfifo (s.ofifo.drop n)).answer (.bytes (s.ofifo.take n)))
  else .refused .drainBeyondOutput

/-- One host transaction, as one atomic change (spec/20_memory.md R60, R72). -/
def transact (run : Instr → State → Host.Outcome State Fault Refusal) (t : Transaction) (s : State) :
    Host.Outcome State Fault Refusal :=
  match t with
  | .read addr => .next (busRead addr s)
  | .write addr v => busWrite run addr v s
  | .feed bytes => .next (feed bytes s)
  | .drain n => drain n s
  | .hreset => .next s.resetCore

/-- One step: the host's next transaction happens; with none outstanding the core is idle and holds its
state (spec/60_exceptions.md R240, spec/00_scope.md R7, R8). -/
def stepWith (run : Instr → State → Host.Outcome State Fault Refusal) (s : State) :
    Host.Outcome State Fault Refusal :=
  match s.script with
  | [] => .next s
  | t :: rest => transact run t (s.setScript rest)

/-- The host's next transaction becomes a write of the command word `w` to CMD. -/
def enqueueCommand (s : State) (nbits w : Nat) : State :=
  s.setScript (.write 0x00 (BitVec.ofNat 32 (w % 2 ^ nbits)) :: s.script)

end Sys2Proof.Machine
end

