-- ==== Sys2Proof/Machine/ColorConvert.lean ====
section
/-! DEFINITION. The colour-space converter: CSCF and CSCI (spec/41_color_convert.md). -/

namespace Sys2Proof.Machine

open Sys2Proof

/-- A channel normalised by the denominator, exact (spec/41_color_convert.md R150). -/
def normalise (v den : Half) : QNum := (v.toNat : QNum) / (den.toNat : QNum)

/-- The forward matrix on a pixel normalised by DEN (spec/41_color_convert.md R150). -/
def forwardSample (p : Pixel) (den : Half) : Sample :=
  let r := normalise p.r den
  let g := normalise p.g den
  let b := normalise p.b den
  { y  := 299/1000 * r + 587/1000 * g + 114/1000 * b
    pb := -(168736/1000000) * r - 331264/1000000 * g + 5/10 * b
    pr := 5/10 * r - 418688/1000000 * g - 81312/1000000 * b }

/-- The inverse matrix on a sample, each result times DEN and rounded: nR, nG, nB
(spec/41_color_convert.md R152). -/
def inverseChannels (c : Sample) (den : Half) : Int × Int × Int :=
  let d : QNum := (den.toNat : QNum)
  let r := c.y + 1402/1000 * c.pr
  let g := c.y - 344136/1000000 * c.pb - 714136/1000000 * c.pr
  let b := c.y + 1772/1000 * c.pb
  (rnd (r * d), rnd (g * d), rnd (b * d))

/-- A rounded channel clamped to 0..DEN, as a 16-bit channel (spec/41_color_convert.md R152). -/
def clampChannel (n : Int) (den : Half) : Half := BitVec.ofInt 16 (clampInt n 0 den.toNat)

/-- The pixel that CSCI writes for a sample (spec/41_color_convert.md R152). -/
def inversePixel (c : Sample) (den : Half) : Pixel :=
  let n := inverseChannels c den
  ⟨clampChannel n.1 den, clampChannel n.2.1 den, clampChannel n.2.2 den⟩

/-- Whether CSCI clamps at least one channel of a sample (spec/41_color_convert.md R152). -/
def inverseClamps (c : Sample) (den : Half) : Bool :=
  let n := inverseChannels c den
  outOfRange n.1 den || outOfRange n.2.1 den || outOfRange n.2.2 den

/-- CSCF k (spec/41_color_convert.md R150). -/
def stageCscf (k : Pos) (s : State) : Except Raise State :=
  if s.den = 0 then .error ⟨.badDenominator, einfoOf k⟩
  else .ok (s.setCs (s.cs.set k (forwardSample (s.px.get k) s.den)))

/-- CSCI k (spec/41_color_convert.md R152). -/
def stageCsci (k : Pos) (s : State) : Except Raise State :=
  if s.den = 0 then .error ⟨.badDenominator, einfoOf k⟩
  else
    let c := s.cs.get k
    .ok ((s.setPx (s.px.set k (inversePixel c s.den))).setStatus
      (s.status.noteClamp (inverseClamps c s.den)))

/-- The command CSCF k (spec/41_color_convert.md R150). -/
def execCscf (k : Pos) (s : State) : Host.Outcome State Fault Refusal :=
  runCommand 0x01 [(0x01, stageCscf k)] s

/-- The command CSCI k (spec/41_color_convert.md R152). -/
def execCsci (k : Pos) (s : State) : Host.Outcome State Fault Refusal :=
  runCommand 0x02 [(0x02, stageCsci k)] s

end Sys2Proof.Machine
end

