-- ==== Sys2Proof/Machine/Pack.lean ====
section
/-! DEFINITION. The packed-word packer and unpacker: PACK and UNPK (spec/44_pack.md). -/

namespace Sys2Proof.Machine

open Sys2Proof

/-- The number of the first field of Q that does not fit its field of the packed word, in the order a, b,
c, d, avg_pb, avg_pr (spec/44_pack.md R180). -/
def firstUnfit (q : Quant) : Option (BitVec 3) :=
  if ¬ fitsu 9 q.a.toInt then some 0
  else if ¬ fitss 5 q.b.toInt then some 1
  else if ¬ fitss 5 q.c.toInt then some 2
  else if ¬ fitss 5 q.d.toInt then some 3
  else if ¬ fitsu 4 q.pb.toInt then some 4
  else if ¬ fitsu 4 q.pr.toInt then some 5
  else none

/-- The packed word of six fitting values, built from 0 (spec/44_pack.md R180; layout
spec/30_encoding.md R100). -/
def packed (q : Quant) : Word :=
  let w : Word := newu 0 9 23 q.a.toInt
  let w := news w 5 18 q.b.toInt
  let w := news w 5 13 q.c.toInt
  let w := news w 5 8 q.d.toInt
  let w := newu w 4 4 q.pb.toInt
  newu w 4 0 q.pr.toInt

/-- PACK (spec/44_pack.md R180). -/
def stagePack (s : State) : Except Raise State :=
  match firstUnfit s.q with
  | some i => .error ⟨.fieldOverflow, i⟩
  | none => .ok (s.setW (packed s.q))

/-- The six fields of a packed word (spec/44_pack.md R182). -/
def unpacked (w : Word) : Quant where
  a  := BitVec.ofNat 32 (getu w 9 23)
  b  := BitVec.ofInt 32 (gets w 5 18)
  c  := BitVec.ofInt 32 (gets w 5 13)
  d  := BitVec.ofInt 32 (gets w 5 8)
  pb := BitVec.ofNat 32 (getu w 4 4)
  pr := BitVec.ofNat 32 (getu w 4 0)

/-- UNPK (spec/44_pack.md R182); it cannot fault. -/
def stageUnpk (s : State) : Except Raise State := .ok (s.setQ (unpacked s.w))

/-- The command PACK (spec/44_pack.md R180). -/
def execPack (s : State) : Host.Outcome State Fault Refusal :=
  runCommand 0x07 [(0x07, stagePack)] s

/-- The command UNPK (spec/44_pack.md R182). -/
def execUnpk (s : State) : Host.Outcome State Fault Refusal :=
  runCommand 0x08 [(0x08, stageUnpk)] s

end Sys2Proof.Machine
end

