-- ==== Sys2Proof/Machine/BlockTransform.lean ====
section
/-! DEFINITION. The 2x2 block transform engine: BTF and BTI (spec/42_block_transform.md). -/

namespace Sys2Proof.Machine

open Sys2Proof

/-- A detail coefficient clamped to [-0.3, 0.3] (spec/42_block_transform.md R160, spec/43_quantize.md R172). -/
def clampDetail (x : QNum) : QNum := clampNum x (-(3/10)) (3/10)

/-- The forward transform of four samples (spec/42_block_transform.md R160). -/
def forwardBlock (c : Quad Sample) : Coeffs :=
  let tl := c.tl.y
  let tr := c.tr.y
  let bl := c.bl.y
  let br := c.br.y
  { a  := (tl + tr + bl + br) / 4
    b  := clampDetail ((br + bl - tr - tl) / 4)
    c  := clampDetail ((br - bl + tr - tl) / 4)
    d  := clampDetail ((br - bl - tr + tl) / 4)
    pb := (c.tl.pb + c.tr.pb + c.bl.pb + c.br.pb) / 4
    pr := (c.tl.pr + c.tr.pr + c.bl.pr + c.br.pr) / 4 }

/-- The inverse transform, with the shared chroma (spec/42_block_transform.md R162). -/
def inverseBlock (f : Coeffs) : Quad Sample where
  tl := ⟨f.a - f.b - f.c + f.d, f.pb, f.pr⟩
  tr := ⟨f.a - f.b + f.c - f.d, f.pb, f.pr⟩
  bl := ⟨f.a + f.b - f.c - f.d, f.pb, f.pr⟩
  br := ⟨f.a + f.b + f.c + f.d, f.pb, f.pr⟩

/-- BTF (spec/42_block_transform.md R160); it cannot fault. -/
def stageBtf (s : State) : Except Raise State := .ok (s.setCf (forwardBlock s.cs))

/-- BTI (spec/42_block_transform.md R162); it cannot fault. -/
def stageBti (s : State) : Except Raise State := .ok (s.setCs (inverseBlock s.cf))

/-- The command BTF (spec/42_block_transform.md R160). -/
def execBtf (s : State) : Host.Outcome State Fault Refusal :=
  runCommand 0x03 [(0x03, stageBtf)] s

/-- The command BTI (spec/42_block_transform.md R162). -/
def execBti (s : State) : Host.Outcome State Fault Refusal :=
  runCommand 0x04 [(0x04, stageBti)] s

end Sys2Proof.Machine
end

