-- ==== Sys2Proof/Machine/Quantize.lean ====
section
/-! DEFINITION. The quantizer and the dequantizer: QNT and DQN (spec/43_quantize.md). -/

namespace Sys2Proof.Machine

open Sys2Proof

/-- The chroma index of `x` as a quantised register holds it (spec/43_quantize.md R170). -/
def chromaWord (t : ChromaTable) (x : QNum) : Word := BitVec.ofNat 32 (cqIndex t x).val

/-- The six quantised values of CF (spec/43_quantize.md R170). Each write is of an integer that fits 32
bits: Q.a by the check of `stageQnt`, the others by their range (R171). -/
def quantised (t : ChromaTable) (f : Coeffs) : Quant where
  a  := BitVec.ofInt 32 (rnd (f.a * 511))
  b  := BitVec.ofInt 32 (rnd (f.b * 50))
  c  := BitVec.ofInt 32 (rnd (f.c * 50))
  d  := BitVec.ofInt 32 (rnd (f.d * 50))
  pb := chromaWord t f.pb
  pr := chromaWord t f.pr

/-- QNT (spec/43_quantize.md R170). -/
def stageQnt (s : State) : Except Raise State :=
  let qa := rnd (s.cf.a * 511)
  if qa < -(2 ^ 31) ∨ 2 ^ 31 - 1 < qa then .error ⟨.fieldOverflow, 0⟩
  else .ok (s.setQ (quantised s.table s.cf))

/-- Whether a chroma register holds no index of the table (spec/43_quantize.md R172). -/
def badIndex (v : Word) : Bool := decide (v.toInt < 0 ∨ 15 < v.toInt)

/-- The table index in a chroma register that passed `badIndex`: its low four bits, the whole value for
a value in 0..15 (spec/43_quantize.md R172). -/
def indexOf (v : Word) : Fin 16 := (v.setWidth 4).toFin

/-- The six dequantised values of Q (spec/43_quantize.md R172). -/
def dequantised (t : ChromaTable) (q : Quant) : Coeffs where
  a  := clampNum ((q.a.toInt : QNum) / 511) 0 1
  b  := clampDetail ((q.b.toInt : QNum) / 50)
  c  := clampDetail ((q.c.toInt : QNum) / 50)
  d  := clampDetail ((q.d.toInt : QNum) / 50)
  pb := cqValue t (indexOf q.pb)
  pr := cqValue t (indexOf q.pr)

/-- DQN (spec/43_quantize.md R172); Q.pb is checked before Q.pr. -/
def stageDqn (s : State) : Except Raise State :=
  if badIndex s.q.pb then .error ⟨.chromaIndexRange, 4⟩
  else if badIndex s.q.pr then .error ⟨.chromaIndexRange, 5⟩
  else .ok (s.setCf (dequantised s.table s.q))

/-- The command QNT (spec/43_quantize.md R170). -/
def execQnt (s : State) : Host.Outcome State Fault Refusal :=
  runCommand 0x05 [(0x05, stageQnt)] s

/-- The command DQN (spec/43_quantize.md R172). -/
def execDqn (s : State) : Host.Outcome State Fault Refusal :=
  runCommand 0x06 [(0x06, stageDqn)] s

end Sys2Proof.Machine
end

