-- ==== Sys2Proof/Machine/Serialize.lean ====
section
/-! DEFINITION. The word serializer and deserializer: SER and DES (spec/45_serialize.md). -/

namespace Sys2Proof.Machine

open Sys2Proof

/-- SER: the four bytes of W, most significant first (spec/45_serialize.md R190); it cannot fault. -/
def stageSer (s : State) : Except Raise State :=
  .ok (s.oPush (s.w.extractLsb' 24 8) (s.w.extractLsb' 16 8) (s.w.extractLsb' 8 8) (s.w.extractLsb' 0 8))

/-- The word of four bytes, the first the most significant (spec/45_serialize.md R192). -/
def wordOfBytes (b0 b1 b2 b3 : Byte) : Word := b0 ++ b1 ++ b2 ++ b3

/-- DES (spec/45_serialize.md R192). -/
def stageDes (s : State) : Except Raise State :=
  match iPop4 s.ififo with
  | none => .error ⟨.streamUnderrun, 0⟩
  | some ((b0, b1, b2, b3), rest) => .ok ((s.setIfifo rest).setW (wordOfBytes b0 b1 b2 b3))

/-- The command SER (spec/45_serialize.md R190). -/
def execSer (s : State) : Host.Outcome State Fault Refusal :=
  runCommand 0x09 [(0x09, stageSer)] s

/-- The command DES (spec/45_serialize.md R192). -/
def execDes (s : State) : Host.Outcome State Fault Refusal :=
  runCommand 0x0A [(0x0A, stageDes)] s

end Sys2Proof.Machine
end

