-- ==== Sys2Proof/Machine/System.lean ====
section
/-! DEFINITION. The composite operations ENCB and DECB and the system operations NOP and RST
(spec/46_composite_system.md). -/

namespace Sys2Proof.Machine

open Sys2Proof

/-- The stages of ENCB (spec/46_composite_system.md R203). -/
def encbStages : List (Byte × (State → Except Raise State)) :=
  [(0x01, stageCscf .tl), (0x01, stageCscf .tr), (0x01, stageCscf .bl), (0x01, stageCscf .br),
   (0x03, stageBtf), (0x05, stageQnt), (0x07, stagePack), (0x09, stageSer)]

/-- The stages of DECB (spec/46_composite_system.md R204). -/
def decbStages : List (Byte × (State → Except Raise State)) :=
  [(0x0A, stageDes), (0x08, stageUnpk), (0x06, stageDqn), (0x04, stageBti),
   (0x02, stageCsci .tl), (0x02, stageCsci .tr), (0x02, stageCsci .bl), (0x02, stageCsci .br)]

/-- The command NOP: nothing (spec/46_composite_system.md R200). -/
def execNop (s : State) : Host.Outcome State Fault Refusal := runCommand 0x00 [] s

/-- The command ENCB (spec/46_composite_system.md R203). -/
def execEncb (s : State) : Host.Outcome State Fault Refusal := runCommand 0x10 encbStages s

/-- The command DECB (spec/46_composite_system.md R204). -/
def execDecb (s : State) : Host.Outcome State Fault Refusal := runCommand 0x11 decbStages s

/-- The command RST, the only one that acts in the abort state (spec/46_composite_system.md R201). -/
def execRst (s : State) : Host.Outcome State Fault Refusal := .next s.resetCore

end Sys2Proof.Machine
end

