-- ==== Sys2Proof/Machine/Dispatch.lean ====
section
/-! DEFINITION. The meaning of every instruction: one arm per constructor of Instr. -/

namespace Sys2Proof.Machine

open Sys2Proof

def exec (i : Instr) (s : State) : Host.Outcome State Fault Refusal :=
  match i with
  | .nop => Sys2Proof.Machine.execNop s
  | .cscf k => Sys2Proof.Machine.execCscf k s
  | .csci k => Sys2Proof.Machine.execCsci k s
  | .btf => Sys2Proof.Machine.execBtf s
  | .bti => Sys2Proof.Machine.execBti s
  | .qnt => Sys2Proof.Machine.execQnt s
  | .dqn => Sys2Proof.Machine.execDqn s
  | .pack => Sys2Proof.Machine.execPack s
  | .unpk => Sys2Proof.Machine.execUnpk s
  | .ser => Sys2Proof.Machine.execSer s
  | .des => Sys2Proof.Machine.execDes s
  | .encb => Sys2Proof.Machine.execEncb s
  | .decb => Sys2Proof.Machine.execDecb s
  | .rst => Sys2Proof.Machine.execRst s

end Sys2Proof.Machine
end

