-- ==== Sys2Proof/Machine/Step.lean ====
section
/-! DEFINITION. One step of the machine: the host's next transaction. -/

namespace Sys2Proof.Machine

open Sys2Proof

/-- One step (spec/00_scope.md R8): `stepWith` with the meanings of Machine/Dispatch.lean. -/
def step (s : State) : Host.Outcome State Fault Refusal := stepWith exec s

/-- `s` with a write of the table word `w` to CMD as the host's next transaction. A4CORE fetches nothing
(spec/10_state.md R30): a command is taken from the data of the CMD write (spec/20_memory.md R75). Log
entry 6. -/
def State.withFetchWord (s : State) (nbits w : Nat) : State := enqueueCommand s nbits w

end Sys2Proof.Machine
end

