-- ==== Sys2Proof/Machine/HostScript.lean ====
section
/-! DEFINITION. The host's statements and pseudo-instructions (spec/30_encoding.md R105, R106) and the
duties of the host (spec/70_reset_and_hazards.md R262 to R266) as lists of transactions. -/

namespace Sys2Proof.Machine

open Sys2Proof

/-- The byte address of a register (spec/20_memory.md R66): PXk_R at 0x10 + 12k, then G and B. -/
def Reg.addr : Reg → Nat
  | .cmd    => 0x00
  | .status => 0x04
  | .den    => 0x08
  | .w      => 0x0C
  | .px k c => 0x10 + 12 * k.toK.toNat + (match c with | .r => 0 | .g => 4 | .b => 8)
  | .q f    => 0x40 + (match f with | .a => 0 | .b => 4 | .c => 8 | .d => 12 | .pb => 16 | .pr => 20)

/-- `WR <REG>, <value>` (spec/30_encoding.md R105). -/
def Script.wr (r : Reg) (v : Word) : List Transaction := [.write r.addr v]

/-- `RD <REG>` (spec/30_encoding.md R105). -/
def Script.rd (r : Reg) : List Transaction := [.read r.addr]

/-- `<MNEMONIC>` or `<MNEMONIC> k` (spec/30_encoding.md R105). -/
def Script.op (i : Instr) : List Transaction := [.write 0x00 (encode i)]

/-- `LDPX k, r, g, b` (spec/30_encoding.md R106). -/
def Script.ldpx (k : Pos) (r g b : Word) : List Transaction :=
  Script.wr (.px k .r) r ++ Script.wr (.px k .g) g ++ Script.wr (.px k .b) b

/-- `RDPX k` (spec/30_encoding.md R106). -/
def Script.rdpx (k : Pos) : List Transaction :=
  Script.rd (.px k .r) ++ Script.rd (.px k .g) ++ Script.rd (.px k .b)

/-- `LDQ a, b, c, d, pb, pr` (spec/30_encoding.md R106). -/
def Script.ldq (q : Quant) : List Transaction :=
  Script.wr (.q .a) q.a ++ Script.wr (.q .b) q.b ++ Script.wr (.q .c) q.c ++
    Script.wr (.q .d) q.d ++ Script.wr (.q .pb) q.pb ++ Script.wr (.q .pr) q.pr

/-- `RDQ` (spec/30_encoding.md R106). -/
def Script.rdq : List Transaction :=
  Script.rd (.q .a) ++ Script.rd (.q .b) ++ Script.rd (.q .c) ++
    Script.rd (.q .d) ++ Script.rd (.q .pb) ++ Script.rd (.q .pr)

/-- The commands of `CSCF4` (spec/30_encoding.md R106). -/
def Script.cscf4 : List Instr := [.cscf .tl, .cscf .tr, .cscf .bl, .cscf .br]

/-- The commands of `CSCI4` (spec/30_encoding.md R106). -/
def Script.csci4 : List Instr := [.csci .tl, .csci .tr, .csci .bl, .csci .br]

/-- The commands of `ENCODE` (spec/30_encoding.md R106). -/
def Script.encode : List Instr := Script.cscf4 ++ [.btf, .qnt, .pack, .ser]

/-- The commands of `DECODE` (spec/30_encoding.md R106). -/
def Script.decode : List Instr := [.des, .unpk, .dqn, .bti] ++ Script.csci4

/-- A list of commands as host statements, one write to CMD each (spec/30_encoding.md R105). -/
def Script.ops : List Instr → List Transaction
  | [] => []
  | i :: rest => Script.op i ++ Script.ops rest

/-! ## The host contract (spec/70_reset_and_hazards.md section 6)

The loop over the blocks is the host's and no function of A4CORE (spec/00_scope.md R6 (5)); it is written
down here as the transactions the host sends. The header is not: its format is open (R265). -/

/-- A dimension after trimming: an odd last row or column is dropped (spec/70_reset_and_hazards.md R263). -/
def trimmed (n : Nat) : Nat := n / 2 * 2

/-- The pixel (column, row) at position `k` of the block at block-row `i`, block-column `j`
(spec/20_memory.md R78, spec/70_reset_and_hazards.md R264). -/
def blockPixel (i j : Nat) : Pos → Nat × Nat
  | .tl => (2 * j, 2 * i)
  | .tr => (2 * j + 1, 2 * i)
  | .bl => (2 * j, 2 * i + 1)
  | .br => (2 * j + 1, 2 * i + 1)

/-- The position in the body of the word of the block (i, j), for a trimmed width `wd`
(spec/20_memory.md R78). -/
def wordIndex (wd i j : Nat) : Nat := i * (wd / 2) + j

/-- The number of body words of a trimmed image (spec/20_memory.md R77). -/
def bodyWords (wd ht : Nat) : Nat := wd / 2 * (ht / 2)

/-- The blocks (block-row, block-column) of a trimmed image in stream order
(spec/70_reset_and_hazards.md R264). -/
def blockOrder (wd ht : Nat) : List (Nat × Nat) :=
  (List.range (ht / 2)).flatMap fun i => (List.range (wd / 2)).map fun j => (i, j)

/-- Load the block (i, j) of an image, given as the three channels at each (column, row)
(spec/70_reset_and_hazards.md R262, R264). -/
def Script.loadBlock (image : Nat × Nat → Word × Word × Word) (i j : Nat) : List Transaction :=
  [Pos.tl, Pos.tr, Pos.bl, Pos.br].flatMap fun k =>
    Script.ldpx k (image (blockPixel i j k)).1 (image (blockPixel i j k)).2.1 (image (blockPixel i j k)).2.2

/-- Compress a trimmed image: DEN once, then for each block load, ENCB, read STATUS, collect four bytes
(spec/70_reset_and_hazards.md R262, R264, R266). -/
def Script.compress (image : Nat × Nat → Word × Word × Word) (den : Word) (wd ht : Nat) :
    List Transaction :=
  Script.wr .den den ++ (blockOrder wd ht).flatMap fun b =>
    Script.loadBlock image b.1 b.2 ++ Script.op .encb ++ Script.rd .status ++ [.drain 4]

/-- Decompress a body: DEN once, the whole body, then for each block DECB, read STATUS, fetch the pixels
(spec/70_reset_and_hazards.md R262, R264, R266). -/
def Script.decompress (body : List Byte) (den : Word) (wd ht : Nat) : List Transaction :=
  Script.wr .den den ++ [.feed body] ++ (blockOrder wd ht).flatMap fun _ =>
    Script.op .decb ++ Script.rd .status ++
      Script.rdpx .tl ++ Script.rdpx .tr ++ Script.rdpx .bl ++ Script.rdpx .br

end Sys2Proof.Machine
end

