-- ==== Sys2Proof/Safety.lean ====
section
/-! DEFINITION. What counts as a safe state and a run that ended well, and the words statements use. -/

namespace Sys2Proof.Machine

open Sys2Proof

/-- The abort state (spec/60_exceptions.md R224). -/
def State.aborted (s : State) : Bool := s.status.err

/-- The run has ended well (spec/70_reset_and_hazards.md R261): no transaction is outstanding, no fault is
recorded, both FIFOs are empty. -/
def State.endedWell (s : State) : Bool :=
  s.script.isEmpty && !s.status.err && s.ififo.isEmpty && s.ofifo.isEmpty

/-- A detail coefficient in [-0.3, 0.3] (spec/10_state.md R36). -/
abbrev detailBounded (x : QNum) : Prop := -(3/10) ≤ x ∧ x ≤ 3/10

/-- The invariant of spec/10_state.md R36: CF.b, CF.c and CF.d lie in [-0.3, 0.3]. -/
abbrev State.CoeffsBounded (s : State) : Prop :=
  detailBounded s.cf.b ∧ detailBounded s.cf.c ∧ detailBounded s.cf.d

/-- The invariant of spec/10_state.md R33 and spec/60_exceptions.md R220: while ERR = 0 the fault fields are
0, and while ERR = 1 the cause is one of 1 to 5. -/
abbrev State.FaultRecordSound (s : State) : Prop :=
  (s.status.err = false →
    s.status.cause = 0 ∧ s.status.eop = 0 ∧ s.status.estage = 0 ∧ s.status.einfo = 0) ∧
  (s.status.err = true → 1 ≤ s.status.cause.toNat ∧ s.status.cause.toNat ≤ 5)

/-- Every channel of every pixel is at most DEN, and DEN is not 0: the block of a well-behaved host
(spec/41_color_convert.md R151 (b), spec/70_reset_and_hazards.md R262). -/
abbrev State.PixelsInRange (s : State) : Prop :=
  s.den ≠ 0 ∧ ∀ k c, ((s.px.get k).get c).toNat ≤ s.den.toNat

/-- The instructions one after the other, as the host's sequence of single commands runs them
(spec/46_composite_system.md R205). -/
def execAll : List Instr → State → Host.Outcome State Fault Refusal
  | [], s => .next s
  | i :: rest, s =>
    match exec i s with
    | .next s' => execAll rest s'
    | .fault r => .fault r
    | .refused r => .refused r

/-! ## The words statements use -/

/-- `s` with a fault recorded in STATUS as spec/60_exceptions.md R222 lists it. -/
def State.withFaultRecord (s : State) (cause : BitVec 4) (eop estage : Byte) (einfo : BitVec 3) : State :=
  { s with status := { s.status with
      err := true, cause := cause, eop := eop, estage := estage, einfo := einfo } }

/-- `s` after its next transaction was taken off the script, leaving `rest`, and answered with `a`. -/
def State.answered (s : State) (rest : List Transaction) (a : Answer) : State :=
  { s with script := rest, answers := s.answers ++ [a] }

/-- The reset state of the core beside the host's record and the table of `s` (spec/10_state.md R45). -/
def State.resetBeside (s : State) : State :=
  { px := ⟨⟨0, 0, 0⟩, ⟨0, 0, 0⟩, ⟨0, 0, 0⟩, ⟨0, 0, 0⟩⟩
    q := ⟨0, 0, 0, 0, 0, 0⟩
    w := 0
    cs := ⟨⟨0, 0, 0⟩, ⟨0, 0, 0⟩, ⟨0, 0, 0⟩, ⟨0, 0, 0⟩⟩
    cf := ⟨0, 0, 0, 0, 0, 0⟩
    den := 0
    status := ⟨false, false, 0, 0, 0, 0⟩
    ififo := []
    ofifo := []
    table := s.table
    script := s.script
    answers := s.answers }

/-- The registers and FIFOs of two states agree (spec/10_state.md R20): all of the core's state, whatever
the host's record. -/
abbrev State.SameCore (s t : State) : Prop :=
  t.px = s.px ∧ t.q = s.q ∧ t.w = s.w ∧ t.cs = s.cs ∧ t.cf = s.cf ∧ t.den = s.den ∧
    t.status = s.status ∧ t.ififo = s.ififo ∧ t.ofifo = s.ofifo

end Sys2Proof.Machine
end

