-- ==== Sys2Proof/Certificates/Slice0/Obligations.lean ====
section
/-! DEFINITION. The statements about A4CORE for the provers, each a rule of spec/ or derived from one. -/

open Sys2Proof Sys2Proof.Machine

/-! ## Encodings -/

/-- Spec/30_encoding.md R93: the 20 legal command words, written out from the table, decode to the
operations they stand for. -/
def Obligations.CommandWordsDecodeByTable : Prop :=
  decode 0x00000000#32 = .ok .nop ∧
  decode 0x00000001#32 = .ok (.cscf .tl) ∧ decode 0x00000101#32 = .ok (.cscf .tr) ∧
  decode 0x00000201#32 = .ok (.cscf .bl) ∧ decode 0x00000301#32 = .ok (.cscf .br) ∧
  decode 0x00000002#32 = .ok (.csci .tl) ∧ decode 0x00000102#32 = .ok (.csci .tr) ∧
  decode 0x00000202#32 = .ok (.csci .bl) ∧ decode 0x00000302#32 = .ok (.csci .br) ∧
  decode 0x00000003#32 = .ok .btf ∧ decode 0x00000004#32 = .ok .bti ∧
  decode 0x00000005#32 = .ok .qnt ∧ decode 0x00000006#32 = .ok .dqn ∧
  decode 0x00000007#32 = .ok .pack ∧ decode 0x00000008#32 = .ok .unpk ∧
  decode 0x00000009#32 = .ok .ser ∧ decode 0x0000000A#32 = .ok .des ∧
  decode 0x00000010#32 = .ok .encb ∧ decode 0x00000011#32 = .ok .decb ∧
  decode 0x000000FF#32 = .ok .rst

/-- Spec/30_encoding.md R91, R93: the decoder and the encoder are inverse to each other; every instruction
has exactly one command word, and that word decodes to it. -/
def Obligations.DecodeInvertsEncode : Prop :=
  ∀ (i : Instr) (v : Word), decode v = .ok i ↔ v = encode i

/-- Spec/30_encoding.md R94: which command words are legal. -/
def Obligations.DecodeAcceptsLegalWordsOnly : Prop :=
  ∀ v : Word, (∃ i, decode v = .ok i) ↔
    v.extractLsb' 10 22 = 0 ∧
    v.extractLsb' 0 8 ∈ [0x00#8, 0x01#8, 0x02#8, 0x03#8, 0x04#8, 0x05#8, 0x06#8, 0x07#8, 0x08#8, 0x09#8,
      0x0A#8, 0x10#8, 0x11#8, 0xFF#8] ∧
    (v.extractLsb' 0 8 = 0x01#8 ∨ v.extractLsb' 0 8 = 0x02#8 ∨ v.extractLsb' 8 2 = 0)

/-! ## Dispatch, the abort state, the bus and the streams

The host's transactions and the core's answers stand in the model's own fields script and answers (log
entry 1); `answered` is those two fields after a transaction. What the rules say of the core's own state
and of the answer does not depend on that. -/

/-- Spec/30_encoding.md R90 (3), spec/20_memory.md R75: when the host's next transaction writes a word that
decodes to `i` to CMD, the step is `exec i` on the state in which that transaction is taken off the script
and answered OKAY (the answer and the script are the model's own record: log entry 1). -/
def Obligations.StepRunsDecodedInstruction : Prop :=
  ∀ (s : State) (v : Word) (rest : List Transaction) (i : Instr),
    s.script = .write 0x00 v :: rest → decode v = .ok i →
    step s = exec i (s.answered rest .okay)

/-- Spec/30_encoding.md R95, spec/60_exceptions.md R221: a word that is not a legal command, written to CMD
outside the abort state, records IllegalCommand with EOP = ESTAGE = its bits 7:0 and changes no other
register. -/
def Obligations.IllegalCommandIsRecorded : Prop :=
  ∀ (s : State) (v : Word) (rest : List Transaction),
    s.script = .write 0x00 v :: rest → s.status.err = false →
    (Command.ofWord v).wellFormed = false →
    step s = .next
      ((s.answered rest .okay).withFaultRecord 3 (v.extractLsb' 0 8) (v.extractLsb' 0 8) 0)

/-- Spec/60_exceptions.md R224: in the abort state every command but exactly 0x000000FF is ignored, that one
runs RST, writes to the other mapped registers are ignored, and reads, Feed and Drain work as always. That
RST leaves the host's script and answers as they are is the model's choice (log entry 1). -/
def Obligations.AbortStateIgnoresAllButReset : Prop :=
  ∀ (s : State) (rest : List Transaction), s.status.err = true →
    (∀ v : Word, v ≠ 0x000000FF → s.script = .write 0x00 v :: rest →
      step s = .next (s.answered rest .okay)) ∧
    (s.script = .write 0x00 0x000000FF :: rest →
      step s = .next (s.answered rest .okay).resetBeside) ∧
    (∀ addr v r, regAt addr = some r → r ≠ .cmd → s.script = .write addr v :: rest →
      step s = .next (s.answered rest .okay)) ∧
    (∀ addr r, regAt addr = some r → s.script = .read addr :: rest →
      step s = .next (s.answered rest (.value (s.readReg r)))) ∧
    (∀ bytes, s.script = .feed bytes :: rest →
      step s = .next { s with script := rest, ififo := s.ififo ++ bytes }) ∧
    (∀ n, n ≤ s.ofifo.length → s.script = .drain n :: rest →
      step s = .next { (s.answered rest (.bytes (s.ofifo.take n))) with ofifo := s.ofifo.drop n })

/-- Spec/60_exceptions.md R224, spec/46_composite_system.md R201: every instruction but RST completes with no
effect in the abort state. -/
def Obligations.InstructionsIgnoredInAbortState : Prop :=
  ∀ (i : Instr) (s : State), s.status.err = true → i ≠ .rst → exec i s = .next s

/-- Spec/20_memory.md R62: what a bus read answers, in every state, and that it changes no register. -/
def Obligations.BusReadAnswersRegister : Prop :=
  ∀ (s : State) (addr : Nat) (rest : List Transaction), s.script = .read addr :: rest →
    ((addr % 4 ≠ 0 ∨ 0xFF < addr ∨ 0x58 ≤ addr) → step s = .next (s.answered rest .busErr)) ∧
    (addr = 0x00 → step s = .next (s.answered rest (.value 0))) ∧
    (addr = 0x04 → step s = .next (s.answered rest (.value s.status.word))) ∧
    (addr = 0x08 → step s = .next (s.answered rest (.value (s.den.setWidth 32)))) ∧
    (addr = 0x0C → step s = .next (s.answered rest (.value s.w))) ∧
    (∀ k : Pos, addr = 0x10 + 12 * k.toK.toNat →
      step s = .next (s.answered rest (.value ((s.px.get k).r.setWidth 32)))) ∧
    (∀ k : Pos, addr = 0x14 + 12 * k.toK.toNat →
      step s = .next (s.answered rest (.value ((s.px.get k).g.setWidth 32)))) ∧
    (∀ k : Pos, addr = 0x18 + 12 * k.toK.toNat →
      step s = .next (s.answered rest (.value ((s.px.get k).b.setWidth 32)))) ∧
    (addr = 0x40 → step s = .next (s.answered rest (.value s.q.a))) ∧
    (addr = 0x44 → step s = .next (s.answered rest (.value s.q.b))) ∧
    (addr = 0x48 → step s = .next (s.answered rest (.value s.q.c))) ∧
    (addr = 0x4C → step s = .next (s.answered rest (.value s.q.d))) ∧
    (addr = 0x50 → step s = .next (s.answered rest (.value s.q.pb))) ∧
    (addr = 0x54 → step s = .next (s.answered rest (.value s.q.pr)))

/-- Spec/10_state.md R33: the places of the fields of STATUS, and the reserved bits read 0. -/
def Obligations.StatusWordHasItsFields : Prop :=
  ∀ st : Status,
    st.word.extractLsb' 0 1 = (if st.err then 1 else 0) ∧
    st.word.extractLsb' 1 1 = (if st.sat then 1 else 0) ∧
    st.word.extractLsb' 2 2 = 0 ∧
    st.word.extractLsb' 4 4 = st.cause ∧
    st.word.extractLsb' 8 8 = st.eop ∧
    st.word.extractLsb' 16 8 = st.estage ∧
    st.word.extractLsb' 24 3 = st.einfo ∧
    st.word.extractLsb' 27 5 = 0

/-- Spec/20_memory.md R63, R65: what a bus write to a register other than CMD does. -/
def Obligations.BusWriteStoresRegister : Prop :=
  ∀ (s : State) (addr : Nat) (v : Word) (rest : List Transaction), s.script = .write addr v :: rest →
    ((addr % 4 ≠ 0 ∨ 0xFF < addr ∨ 0x58 ≤ addr) → step s = .next (s.answered rest .busErr)) ∧
    (addr = 0x04 → step s = .next (s.answered rest .okay)) ∧
    (s.status.err = true → addr ≠ 0x00 → addr % 4 = 0 → addr < 0x58 →
      step s = .next (s.answered rest .okay)) ∧
    (s.status.err = false →
      (addr = 0x08 → step s = .next { s.answered rest .okay with den := v.extractLsb' 0 16 }) ∧
      (addr = 0x0C → step s = .next { s.answered rest .okay with w := v }) ∧
      (∀ k : Pos, addr = 0x10 + 12 * k.toK.toNat → step s = .next
        { s.answered rest .okay with
          px := s.px.set k { s.px.get k with r := v.extractLsb' 0 16 } }) ∧
      (∀ k : Pos, addr = 0x14 + 12 * k.toK.toNat → step s = .next
        { s.answered rest .okay with
          px := s.px.set k { s.px.get k with g := v.extractLsb' 0 16 } }) ∧
      (∀ k : Pos, addr = 0x18 + 12 * k.toK.toNat → step s = .next
        { s.answered rest .okay with
          px := s.px.set k { s.px.get k with b := v.extractLsb' 0 16 } }) ∧
      (addr = 0x40 → step s = .next { s.answered rest .okay with q := { s.q with a := v } }) ∧
      (addr = 0x44 → step s = .next { s.answered rest .okay with q := { s.q with b := v } }) ∧
      (addr = 0x48 → step s = .next { s.answered rest .okay with q := { s.q with c := v } }) ∧
      (addr = 0x4C → step s = .next { s.answered rest .okay with q := { s.q with d := v } }) ∧
      (addr = 0x50 → step s = .next { s.answered rest .okay with q := { s.q with pb := v } }) ∧
      (addr = 0x54 → step s = .next { s.answered rest .okay with q := { s.q with pr := v } }))

/-- Spec/20_memory.md R66: the register map is one to one: each register has one address, aligned and below
0x58, and each mapped address one register. -/
def Obligations.RegisterMapIsOneToOne : Prop :=
  (∀ r : Reg, regAt r.addr = some r) ∧
  (∀ addr r, regAt addr = some r → addr = r.addr ∧ addr % 4 = 0 ∧ addr < 0x58) ∧
  (∀ addr, addr % 4 = 0 → addr < 0x58 → ∃ r, regAt addr = some r)

/-- Spec/20_memory.md R68, R72 (a): outside CMD and STATUS, a register that was written reads back what was
stored of the value, and every other register reads as before. -/
def Obligations.RegisterWriteReadsBack : Prop :=
  ∀ (s : State) (v : Word) (r r' : Reg), r ≠ .cmd → r ≠ .status →
    (s.writeReg v r).readReg r =
      (match r with
        | .den | .px _ _ => (v.extractLsb' 0 16).setWidth 32
        | .w | .q _ => v
        | .cmd | .status => 0) ∧
    (r' ≠ r → (s.writeReg v r).readReg r' = s.readReg r')

/-- Spec/20_memory.md R69, R70: Feed appends to IFIFO, Drain takes from the head of OFIFO what it holds, in
every state; a Drain of more is no transaction of the model and is refused by name. -/
def Obligations.StreamPortsFeedAndDrain : Prop :=
  ∀ (s : State) (rest : List Transaction),
    (∀ bytes, s.script = .feed bytes :: rest →
      step s = .next { s with script := rest, ififo := s.ififo ++ bytes }) ∧
    (∀ n, s.script = .drain n :: rest → n ≤ s.ofifo.length →
      step s = .next { (s.answered rest (.bytes (s.ofifo.take n))) with ofifo := s.ofifo.drop n }) ∧
    (∀ n, s.script = .drain n :: rest → s.ofifo.length < n → step s = .refused .drainBeyondOutput)

/-- Spec/10_state.md R45: what a hardware reset and the RST command leave, from every state. -/
def Obligations.ResetZeroesEveryRegister : Prop :=
  ∀ s : State,
    encode .rst = 0x000000FF ∧
    (∃ t, exec .rst s = .next t ∧ s.resetBeside.SameCore t) ∧
    (∀ rest, s.script = .hreset :: rest → ∃ t, step s = .next t ∧ s.resetBeside.SameCore t) ∧
    s.resetBeside.SameCore State.reset

/-- The model's choice (log entries 1 and 2), beside spec/10_state.md R41: a reset of the core leaves the
host's record and the instance's table as they are. -/
def Obligations.ResetKeepsHostRecordAndTable : Prop :=
  ∀ s : State,
    exec .rst s = .next s.resetBeside ∧
    (∀ rest, s.script = .hreset :: rest → step s = .next { s.resetBeside with script := rest })

/-- The model's reading (log entry 1) of spec/60_exceptions.md R240 and spec/00_scope.md R7: with no
transaction outstanding the core holds its state. -/
def Obligations.IdleCoreHoldsItsState : Prop :=
  ∀ s : State, s.script = [] → step s = .next s

/-- Spec/93_implementation_defined.md section 2 (no operation is stuck): every instruction answers a next
state in every state, and a step stops only on a Drain beyond OFIFO. -/
def Obligations.OnlyOverlongDrainStops : Prop :=
  (∀ (i : Instr) (s : State), ∃ t, exec i s = .next t) ∧
  (∀ s : State, (∃ t, step s = .next t) ∨
    (step s = .refused .drainBeyondOutput ∧
      ∃ n rest, s.script = .drain n :: rest ∧ s.ofifo.length < n))

/-! ## The instructions -/

/-- Spec/46_composite_system.md R200: NOP, in every state. -/
def Obligations.NopChangesNothing : Prop :=
  encode .nop = 0x00000000 ∧ ∀ s : State, exec .nop s = .next s

/-- Spec/41_color_convert.md R150: CSCF k. -/
def Obligations.CscfConvertsOnePixel : Prop :=
  ∀ (k : Pos) (s : State), s.status.err = false →
    (encode (.cscf k)).extractLsb' 0 8 = 0x01 ∧ (encode (.cscf k)).extractLsb' 8 2 = k.toK ∧
    (s.den = 0 →
      exec (.cscf k) s = .next (s.withFaultRecord 2 0x01 0x01 (k.toK.setWidth 3))) ∧
    (s.den ≠ 0 →
      let r : QNum := ((s.px.get k).r.toNat : QNum) / (s.den.toNat : QNum)
      let g : QNum := ((s.px.get k).g.toNat : QNum) / (s.den.toNat : QNum)
      let b : QNum := ((s.px.get k).b.toNat : QNum) / (s.den.toNat : QNum)
      exec (.cscf k) s = .next { s with
        cs := s.cs.set k
          { y := 299/1000 * r + 587/1000 * g + 114/1000 * b
            pb := -(168736/1000000) * r - 331264/1000000 * g + 1/2 * b
            pr := 1/2 * r - 418688/1000000 * g - 81312/1000000 * b } })

/-- Spec/41_color_convert.md R152: CSCI k. -/
def Obligations.CsciReconstructsOnePixel : Prop :=
  ∀ (k : Pos) (s : State), s.status.err = false →
    (encode (.csci k)).extractLsb' 0 8 = 0x02 ∧ (encode (.csci k)).extractLsb' 8 2 = k.toK ∧
    (s.den = 0 →
      exec (.csci k) s = .next (s.withFaultRecord 2 0x02 0x02 (k.toK.setWidth 3))) ∧
    (s.den ≠ 0 →
      let d : QNum := (s.den.toNat : QNum)
      let y := (s.cs.get k).y
      let pb := (s.cs.get k).pb
      let pr := (s.cs.get k).pr
      let nr := rnd ((y + 1402/1000 * pr) * d)
      let ng := rnd ((y - 344136/1000000 * pb - 714136/1000000 * pr) * d)
      let nb := rnd ((y + 1772/1000 * pb) * d)
      let den : Int := (s.den.toNat : Int)
      ∃ p : Pixel,
        (p.r.toNat : Int) = max 0 (min nr den) ∧
        (p.g.toNat : Int) = max 0 (min ng den) ∧
        (p.b.toNat : Int) = max 0 (min nb den) ∧
        exec (.csci k) s = .next { s with
          px := s.px.set k p
          status := { s.status with
            sat := s.status.sat || decide (nr < 0 ∨ nr > den ∨ ng < 0 ∨ ng > den ∨ nb < 0 ∨ nb > den) } })

/-- Spec/42_block_transform.md R160: BTF. -/
def Obligations.BtfTransformsBlock : Prop :=
  ∀ s : State, s.status.err = false →
    encode .btf = 0x00000003 ∧
    let tl := s.cs.tl.y
    let tr := s.cs.tr.y
    let bl := s.cs.bl.y
    let br := s.cs.br.y
    exec .btf s = .next { s with cf :=
      { a := (tl + tr + bl + br) / 4
        b := max (-(3/10)) (min ((br + bl - tr - tl) / 4) (3/10))
        c := max (-(3/10)) (min ((br - bl + tr - tl) / 4) (3/10))
        d := max (-(3/10)) (min ((br - bl - tr + tl) / 4) (3/10))
        pb := (s.cs.tl.pb + s.cs.tr.pb + s.cs.bl.pb + s.cs.br.pb) / 4
        pr := (s.cs.tl.pr + s.cs.tr.pr + s.cs.bl.pr + s.cs.br.pr) / 4 } }

/-- Spec/42_block_transform.md R162: BTI. -/
def Obligations.BtiReconstructsBlock : Prop :=
  ∀ s : State, s.status.err = false →
    encode .bti = 0x00000004 ∧
    let f := s.cf
    exec .bti s = .next { s with cs :=
      { tl := { y := f.a - f.b - f.c + f.d, pb := f.pb, pr := f.pr }
        tr := { y := f.a - f.b + f.c - f.d, pb := f.pb, pr := f.pr }
        bl := { y := f.a + f.b - f.c - f.d, pb := f.pb, pr := f.pr }
        br := { y := f.a + f.b + f.c + f.d, pb := f.pb, pr := f.pr } } }

/-- Spec/43_quantize.md R170: QNT. The premise on CF is the invariant of spec/10_state.md R36, stated below
as StepKeepsDetailBounds; it is what makes the rounded b, c and d fit their registers. -/
def Obligations.QntQuantisesCoefficients : Prop :=
  ∀ s : State, s.status.err = false → s.CoeffsBounded →
    encode .qnt = 0x00000005 ∧
    let qa := rnd (s.cf.a * 511)
    ((qa < -2147483648 ∨ 2147483647 < qa) →
      exec .qnt s = .next (s.withFaultRecord 1 0x05 0x05 0)) ∧
    (-2147483648 ≤ qa → qa ≤ 2147483647 →
      ∃ q : Quant, exec .qnt s = .next { s with q := q } ∧
        q.a.toInt = qa ∧
        q.b.toInt = rnd (s.cf.b * 50) ∧
        q.c.toInt = rnd (s.cf.c * 50) ∧
        q.d.toInt = rnd (s.cf.d * 50) ∧
        q.pb.toInt = (cqIndex s.table s.cf.pb).val ∧
        q.pr.toInt = (cqIndex s.table s.cf.pr).val)

/-- Spec/43_quantize.md R172: DQN. -/
def Obligations.DqnDequantisesFields : Prop :=
  ∀ s : State, s.status.err = false →
    encode .dqn = 0x00000006 ∧
    ((s.q.pb.toInt < 0 ∨ 15 < s.q.pb.toInt) →
      exec .dqn s = .next (s.withFaultRecord 5 0x06 0x06 4)) ∧
    (0 ≤ s.q.pb.toInt → s.q.pb.toInt ≤ 15 → (s.q.pr.toInt < 0 ∨ 15 < s.q.pr.toInt) →
      exec .dqn s = .next (s.withFaultRecord 5 0x06 0x06 5)) ∧
    (∀ i j : Fin 16, s.q.pb.toInt = i.val → s.q.pr.toInt = j.val →
      exec .dqn s = .next { s with cf :=
        { a := max 0 (min ((s.q.a.toInt : QNum) / 511) 1)
          b := max (-(3/10)) (min ((s.q.b.toInt : QNum) / 50) (3/10))
          c := max (-(3/10)) (min ((s.q.c.toInt : QNum) / 50) (3/10))
          d := max (-(3/10)) (min ((s.q.d.toInt : QNum) / 50) (3/10))
          pb := s.table.values[i]
          pr := s.table.values[j] } })

/-- Spec/44_pack.md R180: PACK, its six checks in field order, and the word in closed form. -/
def Obligations.PackBuildsWordOrFaults : Prop :=
  ∀ s : State, s.status.err = false →
    encode .pack = 0x00000007 ∧
    let a := s.q.a.toInt
    let b := s.q.b.toInt
    let c := s.q.c.toInt
    let d := s.q.d.toInt
    let pb := s.q.pb.toInt
    let pr := s.q.pr.toInt
    exec .pack s =
      if ¬(0 ≤ a ∧ a < 512) then .next (s.withFaultRecord 1 0x07 0x07 0)
      else if ¬(-16 ≤ b ∧ b < 16) then .next (s.withFaultRecord 1 0x07 0x07 1)
      else if ¬(-16 ≤ c ∧ c < 16) then .next (s.withFaultRecord 1 0x07 0x07 2)
      else if ¬(-16 ≤ d ∧ d < 16) then .next (s.withFaultRecord 1 0x07 0x07 3)
      else if ¬(0 ≤ pb ∧ pb < 16) then .next (s.withFaultRecord 1 0x07 0x07 4)
      else if ¬(0 ≤ pr ∧ pr < 16) then .next (s.withFaultRecord 1 0x07 0x07 5)
      else .next { s with
        w := BitVec.ofInt 32
          (a * 2 ^ 23 + b % 32 * 2 ^ 18 + c % 32 * 2 ^ 13 + d % 32 * 2 ^ 8 + pb * 2 ^ 4 + pr) }

/-- Spec/44_pack.md R182: UNPK. -/
def Obligations.UnpkExtractsFields : Prop :=
  ∀ s : State, s.status.err = false →
    encode .unpk = 0x00000008 ∧
    ∃ q : Quant, exec .unpk s = .next { s with q := q } ∧
      q.a.toInt = (s.w.extractLsb' 23 9).toNat ∧
      q.b.toInt = (s.w.extractLsb' 18 5).toInt ∧
      q.c.toInt = (s.w.extractLsb' 13 5).toInt ∧
      q.d.toInt = (s.w.extractLsb' 8 5).toInt ∧
      q.pb.toInt = (s.w.extractLsb' 4 4).toNat ∧
      q.pr.toInt = (s.w.extractLsb' 0 4).toNat

/-- Spec/45_serialize.md R190: SER. -/
def Obligations.SerAppendsWordBigEndian : Prop :=
  ∀ s : State, s.status.err = false →
    encode .ser = 0x00000009 ∧
    exec .ser s = .next { s with ofifo := s.ofifo ++
      [s.w.extractLsb' 24 8, s.w.extractLsb' 16 8, s.w.extractLsb' 8 8, s.w.extractLsb' 0 8] }

/-- Spec/45_serialize.md R192: DES. -/
def Obligations.DesTakesWordBigEndian : Prop :=
  ∀ s : State, s.status.err = false →
    encode .des = 0x0000000A ∧
    (s.ififo.length < 4 → exec .des s = .next (s.withFaultRecord 4 0x0A 0x0A 0)) ∧
    (∀ b0 b1 b2 b3 rest, s.ififo = b0 :: b1 :: b2 :: b3 :: rest →
      exec .des s = .next { s with
        ififo := rest
        w := BitVec.ofNat 32
          (b0.toNat * 2 ^ 24 + b1.toNat * 2 ^ 16 + b2.toNat * 2 ^ 8 + b3.toNat) })

/-- Spec/46_composite_system.md R203: ENCB. Its stages' functions are those of the statements on CSCF, BTF,
QNT and PACK above. -/
def Obligations.EncbEncodesBlockOrFaults : Prop :=
  ∀ s : State, s.status.err = false →
    encode .encb = 0x00000010 ∧
    let cs : Quad Sample :=
      { tl := forwardSample s.px.tl s.den
        tr := forwardSample s.px.tr s.den
        bl := forwardSample s.px.bl s.den
        br := forwardSample s.px.br s.den }
    let cf := forwardBlock cs
    let q := quantised s.table cf
    let w := packed q
    let qa := rnd (cf.a * 511)
    (s.den = 0 → exec .encb s = .next (s.withFaultRecord 2 0x10 0x01 0)) ∧
    (s.den ≠ 0 → (qa < 0 ∨ 511 < qa) →
      exec .encb s = .next ({ s with cs := cs, cf := cf, q := q }.withFaultRecord 1 0x10 0x07 0)) ∧
    (s.den ≠ 0 → 0 ≤ qa → qa ≤ 511 →
      exec .encb s = .next { s with
        cs := cs
        cf := cf
        q := q
        w := w
        ofifo := s.ofifo ++
          [w.extractLsb' 24 8, w.extractLsb' 16 8, w.extractLsb' 8 8, w.extractLsb' 0 8] })

/-- Spec/46_composite_system.md R204: DECB. Its stages' functions are those of the statements on DES, UNPK,
DQN, BTI and CSCI above. -/
def Obligations.DecbDecodesBlockOrFaults : Prop :=
  ∀ s : State, s.status.err = false →
    encode .decb = 0x00000011 ∧
    (s.ififo.length < 4 → exec .decb s = .next (s.withFaultRecord 4 0x11 0x0A 0)) ∧
    (∀ b0 b1 b2 b3 rest, s.ififo = b0 :: b1 :: b2 :: b3 :: rest →
      let w := wordOfBytes b0 b1 b2 b3
      let q := unpacked w
      let cf := dequantised s.table q
      let cs := inverseBlock cf
      let t : State := { s with ififo := rest, w := w, q := q, cf := cf, cs := cs }
      (s.den = 0 → exec .decb s = .next (t.withFaultRecord 2 0x11 0x02 0)) ∧
      (s.den ≠ 0 → exec .decb s = .next { t with
        px :=
          { tl := inversePixel cs.tl s.den
            tr := inversePixel cs.tr s.den
            bl := inversePixel cs.bl s.den
            br := inversePixel cs.br s.den }
        status := { s.status with
          sat := s.status.sat || inverseClamps cs.tl s.den || inverseClamps cs.tr s.den ||
            inverseClamps cs.bl s.den || inverseClamps cs.br s.den } }))

/-! ## Frames and faults over all instructions -/

/-- Spec/10_state.md R24, the column "writes": what each instruction leaves unchanged. The first three
conjuncts are about the model's own fields: that no instruction, RST included, changes the script and the
answers is the model's choice (log entry 1); the table is a constant of the instance (spec/10_state.md R41,
log entry 2). -/
def Obligations.InstructionsWriteOnlyTheirRow : Prop :=
  ∀ (i : Instr) (s t : State), exec i s = .next t →
    t.table = s.table ∧ t.script = s.script ∧ t.answers = s.answers ∧
    (i ≠ .rst → t.den = s.den) ∧
    ((∀ k, i ≠ .csci k) → i ≠ .decb → i ≠ .rst → t.px = s.px ∧ t.status.sat = s.status.sat) ∧
    ((∀ k, i ≠ .cscf k) → i ≠ .bti → i ≠ .encb → i ≠ .decb → i ≠ .rst → t.cs = s.cs) ∧
    (i ≠ .btf → i ≠ .dqn → i ≠ .encb → i ≠ .decb → i ≠ .rst → t.cf = s.cf) ∧
    (i ≠ .qnt → i ≠ .unpk → i ≠ .encb → i ≠ .decb → i ≠ .rst → t.q = s.q) ∧
    (i ≠ .pack → i ≠ .des → i ≠ .encb → i ≠ .decb → i ≠ .rst → t.w = s.w) ∧
    (i ≠ .des → i ≠ .decb → i ≠ .rst → t.ififo = s.ififo) ∧
    (i ≠ .ser → i ≠ .encb → i ≠ .rst → t.ofifo = s.ofifo) ∧
    (∀ k j, i = .cscf k → j ≠ k → t.cs.get j = s.cs.get j) ∧
    (∀ k j, i = .csci k → j ≠ k → t.px.get j = s.px.get j)

/-- Spec/60_exceptions.md R222, R223: an elementary operation that records a fault has no other effect, with
EOP and ESTAGE both its opcode and SAT kept; a composite one records its own opcode as EOP. -/
def Obligations.FaultsArePrecise : Prop :=
  ∀ (i : Instr) (s t : State), s.status.err = false → exec i s = .next t → t.status.err = true →
    t.status.eop = opcodeOf i ∧
    (i ≠ .encb → i ≠ .decb →
      ∃ cause einfo, t = s.withFaultRecord cause (opcodeOf i) (opcodeOf i) einfo)

/-- Spec/60_exceptions.md R226, R224: after a fault nothing but a reset changes a register or the fault
record; only what the host feeds and drains changes the FIFOs. -/
def Obligations.FirstFaultStaysUntilReset : Prop :=
  ∀ s t : State, s.status.err = true → step s = .next t →
    (s.resetBeside.SameCore t ∧
      ∃ rest, s.script = .hreset :: rest ∨ s.script = .write 0x00 0x000000FF :: rest) ∨
    (t.px = s.px ∧ t.q = s.q ∧ t.w = s.w ∧ t.cs = s.cs ∧ t.cf = s.cf ∧ t.den = s.den ∧
      t.status = s.status ∧
      (∃ fed, t.ififo = s.ififo ++ fed) ∧ (∃ drained, s.ofifo = drained ++ t.ofifo))

/-- Spec/10_state.md R31: SAT, once set, stays set until a reset. -/
def Obligations.SaturationFlagIsSticky : Prop :=
  ∀ s t : State, s.status.sat = true → step s = .next t →
    t.status.sat = true ∨
    (∃ rest, s.script = .hreset :: rest ∨ s.script = .write 0x00 0x000000FF :: rest)

/-! ## Invariants -/

/-- Spec/10_state.md R36 at reset. -/
def Obligations.DetailBoundsHoldAtReset : Prop := State.reset.CoeffsBounded

/-- Spec/10_state.md R36: every step keeps CF.b, CF.c and CF.d within [-0.3, 0.3]. -/
def Obligations.StepKeepsDetailBounds : Prop :=
  ∀ s t : State, s.CoeffsBounded → step s = .next t → t.CoeffsBounded

/-- Spec/10_state.md R33 at reset: the reset state meets the fault-record invariant, whatever its ERR (which
ResetZeroesEveryRegister states). -/
def Obligations.FaultRecordSoundAtReset : Prop := State.reset.FaultRecordSound

/-- Spec/10_state.md R33, spec/60_exceptions.md R220: every step keeps the fault fields 0 while ERR = 0, and
the cause one of 1 to 5 while ERR = 1. -/
def Obligations.StepKeepsFaultRecordSound : Prop :=
  ∀ s t : State, s.FaultRecordSound → step s = .next t → t.FaultRecordSound

/-- Spec/10_state.md R41 and log entry 2: no step writes the chroma table. -/
def Obligations.StepKeepsChromaTable : Prop :=
  ∀ s t : State, step s = .next t → t.table = s.table

/-! ## The numeric functions -/

/-- Spec/40_numerics.md R122: rounding by its formula; to the nearest integer, a tie to the one farther
from zero; odd. -/
def Obligations.RoundingIsNearestTiesAway : Prop :=
  ∀ x : QNum,
    (0 ≤ x → rnd x = ⌊x + 1/2⌋) ∧ (x < 0 → rnd x = -⌊-x + 1/2⌋) ∧
    |x - (rnd x : QNum)| ≤ 1/2 ∧
    (∀ n : Int, |x - (rnd x : QNum)| ≤ |x - (n : QNum)|) ∧
    (∀ n : Int, |x - (rnd x : QNum)| = |x - (n : QNum)| → |(n : QNum)| ≤ |(rnd x : QNum)|) ∧
    rnd (-x) = -rnd x

/-- Spec/40_numerics.md R123: clamp, on Q and on integers. -/
def Obligations.ClampKeepsWithinBounds : Prop :=
  (∀ x lo hi : QNum, lo ≤ hi →
    (x < lo → clampNum x lo hi = lo) ∧ (hi < x → clampNum x lo hi = hi) ∧
    (lo ≤ x → x ≤ hi → clampNum x lo hi = x)) ∧
  (∀ x lo hi : Int, lo ≤ hi →
    (x < lo → clampInt x lo hi = lo) ∧ (hi < x → clampInt x lo hi = hi) ∧
    (lo ≤ x → x ≤ hi → clampInt x lo hi = x))

/-- Spec/40_numerics.md R128: the chroma index is the smallest index of a nearest table value, for every
table. -/
def Obligations.ChromaIndexIsNearestLowest : Prop :=
  ∀ (t : ChromaTable) (x : QNum) (j : Fin 16),
    |x - t.values[cqIndex t x]| ≤ |x - t.values[j]| ∧
    (j < cqIndex t x → |x - t.values[cqIndex t x]| < |x - t.values[j]|)

/-- Spec/40_numerics.md R130 (a) to (d), R129: the chroma index of a table value is its own index; indices
saturate, are monotone, and change at the midpoints. -/
def Obligations.ChromaIndexThresholds : Prop :=
  ∀ t : ChromaTable,
    (∀ i : Fin 16, cqIndex t (cqValue t i) = i) ∧
    (∀ x, x ≤ t.values[(0 : Fin 16)] → cqIndex t x = 0) ∧
    (∀ x, t.values[(15 : Fin 16)] ≤ x → cqIndex t x = 15) ∧
    (∀ x y, x ≤ y → cqIndex t x ≤ cqIndex t y) ∧
    (∀ x (i j : Fin 16), i.val + 1 = j.val →
      (j ≤ cqIndex t x ↔ (t.values[i] + t.values[j]) / 2 < x))

/-- Spec/40_numerics.md R125, R126: a value inserted into a field is extracted from it, and an insert leaves
every bit outside the field alone. -/
def Obligations.InsertThenExtract : Prop :=
  ∀ (w : Word) (n lsb : Nat) (v : Int), 1 ≤ n → n + lsb ≤ 32 →
    (fitsu n v = true → (getu (newu w n lsb v) n lsb : Int) = v ∧
      ∀ i, (i < lsb ∨ lsb + n ≤ i) → (newu w n lsb v).getLsbD i = w.getLsbD i) ∧
    (fitss n v = true → gets (news w n lsb v) n lsb = v ∧
      ∀ i, (i < lsb ∨ lsb + n ≤ i) → (news w n lsb v).getLsbD i = w.getLsbD i)

/-! ## Round trips and whole paths -/

/-- Spec/41_color_convert.md R151: grey pixels convert to (r/DEN, 0, 0), and channels up to DEN stay within
[0, 1] and [-1/2, 1/2]. -/
def Obligations.CscfSampleRanges : Prop :=
  ∀ (k : Pos) (s : State), s.status.err = false → s.den ≠ 0 →
    ∃ t, exec (.cscf k) s = .next t ∧ t.status.err = false ∧
      ((s.px.get k).g = (s.px.get k).r → (s.px.get k).b = (s.px.get k).r →
        t.cs.get k = ⟨((s.px.get k).r.toNat : QNum) / (s.den.toNat : QNum), 0, 0⟩) ∧
      ((∀ c, ((s.px.get k).get c).toNat ≤ s.den.toNat) →
        0 ≤ (t.cs.get k).y ∧ (t.cs.get k).y ≤ 1 ∧
        |(t.cs.get k).pb| ≤ 1/2 ∧ |(t.cs.get k).pr| ≤ 1/2)

/-- Spec/41_color_convert.md R154: CSCF k then CSCI k gives a pixel with channels up to DEN back, and SAT
keeps its value; a channel above DEN comes back as DEN, with SAT set. -/
def Obligations.PixelRoundTripsThroughColour : Prop :=
  ∀ (k : Pos) (s : State), s.status.err = false → s.den ≠ 0 →
    ∃ t, execAll [.cscf k, .csci k] s = .next t ∧
      ((∀ c, ((s.px.get k).get c).toNat ≤ s.den.toNat) → t.px = s.px ∧ t.status = s.status) ∧
      (∀ c, s.den.toNat < ((s.px.get k).get c).toNat →
        (t.px.get k).get c = s.den ∧ t.status.sat = true)

/-- Spec/42_block_transform.md R164: BTF then BTI gives the luma samples back when no clamp acts, and each
sample the averaged chroma. -/
def Obligations.BlockTransformInverts : Prop :=
  ∀ s : State, s.status.err = false →
    detailBounded ((s.cs.br.y + s.cs.bl.y - s.cs.tr.y - s.cs.tl.y) / 4) →
    detailBounded ((s.cs.br.y - s.cs.bl.y + s.cs.tr.y - s.cs.tl.y) / 4) →
    detailBounded ((s.cs.br.y - s.cs.bl.y - s.cs.tr.y + s.cs.tl.y) / 4) →
    ∃ t, execAll [.btf, .bti] s = .next t ∧
      ∀ k, (t.cs.get k).y = (s.cs.get k).y ∧
        (t.cs.get k).pb = (s.cs.tl.pb + s.cs.tr.pb + s.cs.bl.pb + s.cs.br.pb) / 4 ∧
        (t.cs.get k).pr = (s.cs.tl.pr + s.cs.tr.pr + s.cs.bl.pr + s.cs.br.pr) / 4

/-- Spec/42_block_transform.md R163: after BTI the mean of the luma samples is CF.a, and each lies within
abs(b) + abs(c) + abs(d) of it, which is at most 0.9 when CF is bounded as spec/10_state.md R36 says. -/
def Obligations.BtiLumaStaysNearMean : Prop :=
  ∀ s : State, s.status.err = false → s.CoeffsBounded →
    ∃ t, exec .bti s = .next t ∧
      (t.cs.tl.y + t.cs.tr.y + t.cs.bl.y + t.cs.br.y) / 4 = s.cf.a ∧
      (∀ k, |(t.cs.get k).y - s.cf.a| ≤ |s.cf.b| + |s.cf.c| + |s.cf.d|) ∧
      |s.cf.b| + |s.cf.c| + |s.cf.d| ≤ 9/10 ∧
      (0 ≤ s.cf.a → s.cf.a ≤ 1 → ∀ k, -(9/10) ≤ (t.cs.get k).y ∧ (t.cs.get k).y ≤ 19/10)

/-- Spec/43_quantize.md R171: the ranges QNT leaves, and when PACK after it can fault: exactly when a is out
of its field, on field a. -/
def Obligations.QuantisedFieldsFitExceptA : Prop :=
  ∀ s : State, s.status.err = false → s.CoeffsBounded →
    -2147483648 ≤ rnd (s.cf.a * 511) → rnd (s.cf.a * 511) ≤ 2147483647 →
    ∃ t, exec .qnt s = .next t ∧ t.status.err = false ∧
      (∀ f, f = .b ∨ f = .c ∨ f = .d → -15 ≤ t.q.int f ∧ t.q.int f ≤ 15) ∧
      (∀ f, f = .pb ∨ f = .pr → 0 ≤ t.q.int f ∧ t.q.int f ≤ 15) ∧
      (0 ≤ s.cf.a → s.cf.a ≤ 1 → 0 ≤ t.q.int .a ∧ t.q.int .a ≤ 511) ∧
      ∃ u, exec .pack t = .next u ∧
        ((-(1/2) / 511 < s.cf.a ∧ s.cf.a < (511 + 1/2) / 511) → u.status.err = false) ∧
        (¬(-(1/2) / 511 < s.cf.a ∧ s.cf.a < (511 + 1/2) / 511) →
          u = t.withFaultRecord 1 0x07 0x07 0)

/-- Spec/43_quantize.md R173 (a), (b): what DQN leaves lies in range, and DQN then QNT gives the quantised
fields back when they are in the ranges the forward path produces, for every table. -/
def Obligations.QuantisedBlockRoundTrips : Prop :=
  ∀ s : State, s.status.err = false →
    0 ≤ s.q.int .a → s.q.int .a ≤ 511 →
    (∀ f, f = .b ∨ f = .c ∨ f = .d → -15 ≤ s.q.int f ∧ s.q.int f ≤ 15) →
    (∀ f, f = .pb ∨ f = .pr → 0 ≤ s.q.int f ∧ s.q.int f ≤ 15) →
    ∃ t, exec .dqn s = .next t ∧ 0 ≤ t.cf.a ∧ t.cf.a ≤ 1 ∧ t.CoeffsBounded ∧
      ∃ u, exec .qnt t = .next u ∧ u.status.err = false ∧ u.q = s.q

/-- Spec/44_pack.md R183 (a): PACK then UNPK gives six fitting fields back. -/
def Obligations.PackThenUnpkKeepsFields : Prop :=
  ∀ s : State, s.status.err = false →
    0 ≤ s.q.int .a → s.q.int .a ≤ 511 →
    (∀ f, f = .b ∨ f = .c ∨ f = .d → -16 ≤ s.q.int f ∧ s.q.int f ≤ 15) →
    (∀ f, f = .pb ∨ f = .pr → 0 ≤ s.q.int f ∧ s.q.int f ≤ 15) →
    ∃ t, execAll [.pack, .unpk] s = .next t ∧ t.status.err = false ∧ t.q = s.q

/-- Spec/44_pack.md R183 (b): UNPK then PACK gives every word back. -/
def Obligations.UnpkThenPackKeepsWord : Prop :=
  ∀ s : State, s.status.err = false →
    ∃ t, execAll [.unpk, .pack] s = .next t ∧ t.status.err = false ∧ t.w = s.w

/-- Spec/45_serialize.md R193: SER, then the four bytes fed to an empty IFIFO, then DES gives the word back;
four bytes fed, then DES and SER give the four bytes back. -/
def Obligations.SerialisedWordRoundTrips : Prop :=
  ∀ s u : State, s.status.err = false → u.status.err = false →
    (∃ bs t v, exec .ser s = .next t ∧ t.ofifo = s.ofifo ++ bs ∧ bs.length = 4 ∧
      exec .des { u with ififo := bs } = .next v ∧ v.w = s.w ∧ v.ififo = []) ∧
    (∀ b0 b1 b2 b3, ∃ t, execAll [.des, .ser] { u with ififo := [b0, b1, b2, b3] } = .next t ∧
      t.ififo = [] ∧ t.ofifo = u.ofifo ++ [b0, b1, b2, b3])

/-- Spec/46_composite_system.md R205: ENCB leaves what the commands of ENCODE leave one after the other, and
DECB what those of DECODE leave, but for STATUS.EOP after a fault, which is the composite opcode in the one
and the opcode of the faulting single command (ESTAGE) in the other; from every state. -/
def Obligations.CompositesEqualTheirSequences : Prop :=
  ∀ s : State,
    (∃ t, execAll Script.encode s = .next t ∧
      (s.status.err = false → t.status.err = true → t.status.eop = t.status.estage) ∧
      exec .encb s = .next { t with status := { t.status with
        eop := if s.status.err = false ∧ t.status.err = true then 0x10 else t.status.eop } }) ∧
    (∃ t, execAll Script.decode s = .next t ∧
      (s.status.err = false → t.status.err = true → t.status.eop = t.status.estage) ∧
      exec .decb s = .next { t with status := { t.status with
        eop := if s.status.err = false ∧ t.status.err = true then 0x11 else t.status.eop } })

/-- Spec/20_memory.md R79: what ENCB appends depends on PX, DEN and the table only; what DECB writes to PX
depends on the four bytes consumed, DEN and the table only. -/
def Obligations.BlocksAreIndependent : Prop :=
  ∀ s u : State, s.status.err = false → u.status.err = false → u.den = s.den → u.table = s.table →
    (u.px = s.px → ∃ t v bs, exec .encb s = .next t ∧ exec .encb u = .next v ∧
      v.status.err = t.status.err ∧ t.ofifo = s.ofifo ++ bs ∧ v.ofifo = u.ofifo ++ bs) ∧
    (u.ififo.take 4 = s.ififo.take 4 → ∃ t v, exec .decb s = .next t ∧ exec .decb u = .next v ∧
      v.status.err = t.status.err ∧ (t.status.err = false → v.px = t.px))

/-- Spec/46_composite_system.md R208 (a), (b), spec/43_quantize.md R171 (e): with channels up to DEN, ENCB
never faults, for every table; and when the four pixels are equal, the word it emits has b = c = d = 0. -/
def Obligations.EncbNeverFaultsInRange : Prop :=
  ∀ s : State, s.status.err = false → s.PixelsInRange →
    ∃ t, exec .encb s = .next t ∧ t.status = s.status ∧
      t.ofifo = s.ofifo ++
        [t.w.extractLsb' 24 8, t.w.extractLsb' 16 8, t.w.extractLsb' 8 8, t.w.extractLsb' 0 8] ∧
      ((∀ k, s.px.get k = s.px.tl) → t.w.extractLsb' 8 15 = 0)

/-! ## The host contract -/

/-- Spec/20_memory.md R77, R78, spec/70_reset_and_hazards.md R263, R264: the blocks tile the trimmed image,
each pixel in exactly one place, and the words of the blocks fill the body, each at its own position, which
is its place in the order the host visits the blocks. -/
def Obligations.BlocksTileTrimmedImage : Prop :=
  ∀ wd ht : Nat,
    trimmed wd % 2 = 0 ∧ trimmed wd ≤ wd ∧ wd ≤ trimmed wd + 1 ∧
    4 * bodyWords (trimmed wd) (trimmed ht) = trimmed wd * trimmed ht ∧
    (∀ x y, x < trimmed wd → y < trimmed ht →
      ∃ i j k, i < trimmed ht / 2 ∧ j < trimmed wd / 2 ∧ blockPixel i j k = (x, y) ∧
        ∀ i' j' k', blockPixel i' j' k' = (x, y) → i' = i ∧ j' = j ∧ k' = k) ∧
    (∀ i j, i < trimmed ht / 2 → j < trimmed wd / 2 →
      wordIndex (trimmed wd) i j < bodyWords (trimmed wd) (trimmed ht) ∧
      (blockOrder (trimmed wd) (trimmed ht))[wordIndex (trimmed wd) i j]? = some (i, j) ∧
      ∀ i' j', i' < trimmed ht / 2 → j' < trimmed wd / 2 →
        wordIndex (trimmed wd) i' j' = wordIndex (trimmed wd) i j → i' = i ∧ j' = j)
end

