-- ==== Sys2Proof/Laws/Numerics.lean ====
section
/-! SUPPORT. Small facts about the numeric functions, stated in the order of the rationals. -/

namespace Sys2Proof.Machine

open Sys2Proof

theorem absNum_eq (x : QNum) : absNum x = |x| := by
  unfold absNum
  split
  · rename_i h; exact (abs_of_neg h).symm
  · rename_i h; exact (abs_of_nonneg (not_lt.mp h)).symm

/-- A clamped value lies between the bounds. -/
theorem clampNum_bounds (x : QNum) {lo hi : QNum} (h : lo ≤ hi) :
    lo ≤ clampNum x lo hi ∧ clampNum x lo hi ≤ hi := by
  unfold clampNum
  split
  · exact ⟨le_refl _, h⟩
  · rename_i h1
    split
    · exact ⟨h, le_refl _⟩
    · rename_i h2; exact ⟨not_lt.mp h1, not_lt.mp h2⟩

/-- A value between the bounds is left alone. -/
theorem clampNum_of_mem {x lo hi : QNum} (h1 : lo ≤ x) (h2 : x ≤ hi) : clampNum x lo hi = x := by
  simp [clampNum, not_lt.mpr h1, not_lt.mpr h2]

theorem clampInt_bounds (x : Int) {lo hi : Int} (h : lo ≤ hi) :
    lo ≤ clampInt x lo hi ∧ clampInt x lo hi ≤ hi := by
  unfold clampInt
  split
  · omega
  · split <;> omega

/-- A clamped detail coefficient lies in [-0.3, 0.3]. -/
theorem clampDetail_bounds (x : QNum) : -(3/10) ≤ clampDetail x ∧ clampDetail x ≤ 3/10 :=
  clampNum_bounds x (by norm_num)

/-- On non-negative arguments, rounding is the floor of x + 1/2. -/
theorem rnd_of_nonneg {x : QNum} (h : 0 ≤ x) : rnd x = ⌊x + 1/2⌋ := by simp [rnd, h]; rfl

/-- On negative arguments, rounding is minus the floor of -x + 1/2. -/
theorem rnd_of_neg {x : QNum} (h : x < 0) : rnd x = -⌊-x + 1/2⌋ := by simp [rnd, not_le.mpr h]; rfl

/-- An integer rounds to itself. -/
@[simp] theorem rnd_intCast (n : Int) : rnd (n : QNum) = n := by
  rcases le_or_gt (0 : QNum) (n : QNum) with h | h
  · rw [rnd_of_nonneg h, Int.floor_eq_iff]; constructor <;> linarith
  · rw [rnd_of_neg h, neg_eq_iff_eq_neg, Int.floor_eq_iff]; push_cast; constructor <;> linarith

/-- A value below n + 1/2, for n not negative, rounds to at most n. -/
theorem rnd_le {x : QNum} {n : Int} (h : x < n + 1/2) (hn : 0 ≤ n) : rnd x ≤ n := by
  rcases le_or_gt 0 x with hx | hx
  · rw [rnd_of_nonneg hx, ← Int.lt_add_one_iff, Int.floor_lt]; push_cast; linarith
  · rw [rnd_of_neg hx]
    have : 0 ≤ ⌊-x + 1/2⌋ := Int.floor_nonneg.mpr (by linarith)
    omega

/-- A value above n - 1/2, for n not positive, rounds to at least n. -/
theorem le_rnd {x : QNum} {n : Int} (h : n - 1/2 < x) (hn : n ≤ 0) : n ≤ rnd x := by
  rcases le_or_gt 0 x with hx | hx
  · rw [rnd_of_nonneg hx]
    have : 0 ≤ ⌊x + 1/2⌋ := Int.floor_nonneg.mpr (by linarith)
    omega
  · rw [rnd_of_neg hx, le_neg, ← Int.lt_add_one_iff, Int.floor_lt]; push_cast; linarith

end Sys2Proof.Machine
end

