-- ==== Sys2Proof/Laws/State.lean ====
section
/-! SUPPORT. What each update of State leaves in each field: one lemma per field per update, true by rfl. -/

namespace Sys2Proof.Machine

open Sys2Proof

section setPx
variable (s : State) (x : Quad Pixel)
@[simp] theorem State.setPx_px : (s.setPx x).px = x := rfl
@[simp] theorem State.setPx_q : (s.setPx x).q = s.q := rfl
@[simp] theorem State.setPx_w : (s.setPx x).w = s.w := rfl
@[simp] theorem State.setPx_cs : (s.setPx x).cs = s.cs := rfl
@[simp] theorem State.setPx_cf : (s.setPx x).cf = s.cf := rfl
@[simp] theorem State.setPx_den : (s.setPx x).den = s.den := rfl
@[simp] theorem State.setPx_status : (s.setPx x).status = s.status := rfl
@[simp] theorem State.setPx_ififo : (s.setPx x).ififo = s.ififo := rfl
@[simp] theorem State.setPx_ofifo : (s.setPx x).ofifo = s.ofifo := rfl
@[simp] theorem State.setPx_table : (s.setPx x).table = s.table := rfl
@[simp] theorem State.setPx_script : (s.setPx x).script = s.script := rfl
@[simp] theorem State.setPx_answers : (s.setPx x).answers = s.answers := rfl
end setPx

section setQ
variable (s : State) (x : Quant)
@[simp] theorem State.setQ_px : (s.setQ x).px = s.px := rfl
@[simp] theorem State.setQ_q : (s.setQ x).q = x := rfl
@[simp] theorem State.setQ_w : (s.setQ x).w = s.w := rfl
@[simp] theorem State.setQ_cs : (s.setQ x).cs = s.cs := rfl
@[simp] theorem State.setQ_cf : (s.setQ x).cf = s.cf := rfl
@[simp] theorem State.setQ_den : (s.setQ x).den = s.den := rfl
@[simp] theorem State.setQ_status : (s.setQ x).status = s.status := rfl
@[simp] theorem State.setQ_ififo : (s.setQ x).ififo = s.ififo := rfl
@[simp] theorem State.setQ_ofifo : (s.setQ x).ofifo = s.ofifo := rfl
@[simp] theorem State.setQ_table : (s.setQ x).table = s.table := rfl
@[simp] theorem State.setQ_script : (s.setQ x).script = s.script := rfl
@[simp] theorem State.setQ_answers : (s.setQ x).answers = s.answers := rfl
end setQ

section setW
variable (s : State) (x : Word)
@[simp] theorem State.setW_px : (s.setW x).px = s.px := rfl
@[simp] theorem State.setW_q : (s.setW x).q = s.q := rfl
@[simp] theorem State.setW_w : (s.setW x).w = x := rfl
@[simp] theorem State.setW_cs : (s.setW x).cs = s.cs := rfl
@[simp] theorem State.setW_cf : (s.setW x).cf = s.cf := rfl
@[simp] theorem State.setW_den : (s.setW x).den = s.den := rfl
@[simp] theorem State.setW_status : (s.setW x).status = s.status := rfl
@[simp] theorem State.setW_ififo : (s.setW x).ififo = s.ififo := rfl
@[simp] theorem State.setW_ofifo : (s.setW x).ofifo = s.ofifo := rfl
@[simp] theorem State.setW_table : (s.setW x).table = s.table := rfl
@[simp] theorem State.setW_script : (s.setW x).script = s.script := rfl
@[simp] theorem State.setW_answers : (s.setW x).answers = s.answers := rfl
end setW

section setCs
variable (s : State) (x : Quad Sample)
@[simp] theorem State.setCs_px : (s.setCs x).px = s.px := rfl
@[simp] theorem State.setCs_q : (s.setCs x).q = s.q := rfl
@[simp] theorem State.setCs_w : (s.setCs x).w = s.w := rfl
@[simp] theorem State.setCs_cs : (s.setCs x).cs = x := rfl
@[simp] theorem State.setCs_cf : (s.setCs x).cf = s.cf := rfl
@[simp] theorem State.setCs_den : (s.setCs x).den = s.den := rfl
@[simp] theorem State.setCs_status : (s.setCs x).status = s.status := rfl
@[simp] theorem State.setCs_ififo : (s.setCs x).ififo = s.ififo := rfl
@[simp] theorem State.setCs_ofifo : (s.setCs x).ofifo = s.ofifo := rfl
@[simp] theorem State.setCs_table : (s.setCs x).table = s.table := rfl
@[simp] theorem State.setCs_script : (s.setCs x).script = s.script := rfl
@[simp] theorem State.setCs_answers : (s.setCs x).answers = s.answers := rfl
end setCs

section setCf
variable (s : State) (x : Coeffs)
@[simp] theorem State.setCf_px : (s.setCf x).px = s.px := rfl
@[simp] theorem State.setCf_q : (s.setCf x).q = s.q := rfl
@[simp] theorem State.setCf_w : (s.setCf x).w = s.w := rfl
@[simp] theorem State.setCf_cs : (s.setCf x).cs = s.cs := rfl
@[simp] theorem State.setCf_cf : (s.setCf x).cf = x := rfl
@[simp] theorem State.setCf_den : (s.setCf x).den = s.den := rfl
@[simp] theorem State.setCf_status : (s.setCf x).status = s.status := rfl
@[simp] theorem State.setCf_ififo : (s.setCf x).ififo = s.ififo := rfl
@[simp] theorem State.setCf_ofifo : (s.setCf x).ofifo = s.ofifo := rfl
@[simp] theorem State.setCf_table : (s.setCf x).table = s.table := rfl
@[simp] theorem State.setCf_script : (s.setCf x).script = s.script := rfl
@[simp] theorem State.setCf_answers : (s.setCf x).answers = s.answers := rfl
end setCf

section setDen
variable (s : State) (x : Half)
@[simp] theorem State.setDen_px : (s.setDen x).px = s.px := rfl
@[simp] theorem State.setDen_q : (s.setDen x).q = s.q := rfl
@[simp] theorem State.setDen_w : (s.setDen x).w = s.w := rfl
@[simp] theorem State.setDen_cs : (s.setDen x).cs = s.cs := rfl
@[simp] theorem State.setDen_cf : (s.setDen x).cf = s.cf := rfl
@[simp] theorem State.setDen_den : (s.setDen x).den = x := rfl
@[simp] theorem State.setDen_status : (s.setDen x).status = s.status := rfl
@[simp] theorem State.setDen_ififo : (s.setDen x).ififo = s.ififo := rfl
@[simp] theorem State.setDen_ofifo : (s.setDen x).ofifo = s.ofifo := rfl
@[simp] theorem State.setDen_table : (s.setDen x).table = s.table := rfl
@[simp] theorem State.setDen_script : (s.setDen x).script = s.script := rfl
@[simp] theorem State.setDen_answers : (s.setDen x).answers = s.answers := rfl
end setDen

section setStatus
variable (s : State) (x : Status)
@[simp] theorem State.setStatus_px : (s.setStatus x).px = s.px := rfl
@[simp] theorem State.setStatus_q : (s.setStatus x).q = s.q := rfl
@[simp] theorem State.setStatus_w : (s.setStatus x).w = s.w := rfl
@[simp] theorem State.setStatus_cs : (s.setStatus x).cs = s.cs := rfl
@[simp] theorem State.setStatus_cf : (s.setStatus x).cf = s.cf := rfl
@[simp] theorem State.setStatus_den : (s.setStatus x).den = s.den := rfl
@[simp] theorem State.setStatus_status : (s.setStatus x).status = x := rfl
@[simp] theorem State.setStatus_ififo : (s.setStatus x).ififo = s.ififo := rfl
@[simp] theorem State.setStatus_ofifo : (s.setStatus x).ofifo = s.ofifo := rfl
@[simp] theorem State.setStatus_table : (s.setStatus x).table = s.table := rfl
@[simp] theorem State.setStatus_script : (s.setStatus x).script = s.script := rfl
@[simp] theorem State.setStatus_answers : (s.setStatus x).answers = s.answers := rfl
end setStatus

section setIfifo
variable (s : State) (x : List Byte)
@[simp] theorem State.setIfifo_px : (s.setIfifo x).px = s.px := rfl
@[simp] theorem State.setIfifo_q : (s.setIfifo x).q = s.q := rfl
@[simp] theorem State.setIfifo_w : (s.setIfifo x).w = s.w := rfl
@[simp] theorem State.setIfifo_cs : (s.setIfifo x).cs = s.cs := rfl
@[simp] theorem State.setIfifo_cf : (s.setIfifo x).cf = s.cf := rfl
@[simp] theorem State.setIfifo_den : (s.setIfifo x).den = s.den := rfl
@[simp] theorem State.setIfifo_status : (s.setIfifo x).status = s.status := rfl
@[simp] theorem State.setIfifo_ififo : (s.setIfifo x).ififo = x := rfl
@[simp] theorem State.setIfifo_ofifo : (s.setIfifo x).ofifo = s.ofifo := rfl
@[simp] theorem State.setIfifo_table : (s.setIfifo x).table = s.table := rfl
@[simp] theorem State.setIfifo_script : (s.setIfifo x).script = s.script := rfl
@[simp] theorem State.setIfifo_answers : (s.setIfifo x).answers = s.answers := rfl
end setIfifo

section setOfifo
variable (s : State) (x : List Byte)
@[simp] theorem State.setOfifo_px : (s.setOfifo x).px = s.px := rfl
@[simp] theorem State.setOfifo_q : (s.setOfifo x).q = s.q := rfl
@[simp] theorem State.setOfifo_w : (s.setOfifo x).w = s.w := rfl
@[simp] theorem State.setOfifo_cs : (s.setOfifo x).cs = s.cs := rfl
@[simp] theorem State.setOfifo_cf : (s.setOfifo x).cf = s.cf := rfl
@[simp] theorem State.setOfifo_den : (s.setOfifo x).den = s.den := rfl
@[simp] theorem State.setOfifo_status : (s.setOfifo x).status = s.status := rfl
@[simp] theorem State.setOfifo_ififo : (s.setOfifo x).ififo = s.ififo := rfl
@[simp] theorem State.setOfifo_ofifo : (s.setOfifo x).ofifo = x := rfl
@[simp] theorem State.setOfifo_table : (s.setOfifo x).table = s.table := rfl
@[simp] theorem State.setOfifo_script : (s.setOfifo x).script = s.script := rfl
@[simp] theorem State.setOfifo_answers : (s.setOfifo x).answers = s.answers := rfl
end setOfifo

section setScript
variable (s : State) (x : List Transaction)
@[simp] theorem State.setScript_px : (s.setScript x).px = s.px := rfl
@[simp] theorem State.setScript_q : (s.setScript x).q = s.q := rfl
@[simp] theorem State.setScript_w : (s.setScript x).w = s.w := rfl
@[simp] theorem State.setScript_cs : (s.setScript x).cs = s.cs := rfl
@[simp] theorem State.setScript_cf : (s.setScript x).cf = s.cf := rfl
@[simp] theorem State.setScript_den : (s.setScript x).den = s.den := rfl
@[simp] theorem State.setScript_status : (s.setScript x).status = s.status := rfl
@[simp] theorem State.setScript_ififo : (s.setScript x).ififo = s.ififo := rfl
@[simp] theorem State.setScript_ofifo : (s.setScript x).ofifo = s.ofifo := rfl
@[simp] theorem State.setScript_table : (s.setScript x).table = s.table := rfl
@[simp] theorem State.setScript_script : (s.setScript x).script = x := rfl
@[simp] theorem State.setScript_answers : (s.setScript x).answers = s.answers := rfl
end setScript

section answer
variable (s : State) (a : Answer)
@[simp] theorem State.answer_px : (s.answer a).px = s.px := rfl
@[simp] theorem State.answer_q : (s.answer a).q = s.q := rfl
@[simp] theorem State.answer_w : (s.answer a).w = s.w := rfl
@[simp] theorem State.answer_cs : (s.answer a).cs = s.cs := rfl
@[simp] theorem State.answer_cf : (s.answer a).cf = s.cf := rfl
@[simp] theorem State.answer_den : (s.answer a).den = s.den := rfl
@[simp] theorem State.answer_status : (s.answer a).status = s.status := rfl
@[simp] theorem State.answer_ififo : (s.answer a).ififo = s.ififo := rfl
@[simp] theorem State.answer_ofifo : (s.answer a).ofifo = s.ofifo := rfl
@[simp] theorem State.answer_table : (s.answer a).table = s.table := rfl
@[simp] theorem State.answer_script : (s.answer a).script = s.script := rfl
@[simp] theorem State.answer_answers : (s.answer a).answers = s.answers ++ [a] := rfl
end answer

section oPush
variable (s : State) (b0 b1 b2 b3 : Byte)
@[simp] theorem State.oPush_px : (s.oPush b0 b1 b2 b3).px = s.px := rfl
@[simp] theorem State.oPush_q : (s.oPush b0 b1 b2 b3).q = s.q := rfl
@[simp] theorem State.oPush_w : (s.oPush b0 b1 b2 b3).w = s.w := rfl
@[simp] theorem State.oPush_cs : (s.oPush b0 b1 b2 b3).cs = s.cs := rfl
@[simp] theorem State.oPush_cf : (s.oPush b0 b1 b2 b3).cf = s.cf := rfl
@[simp] theorem State.oPush_den : (s.oPush b0 b1 b2 b3).den = s.den := rfl
@[simp] theorem State.oPush_status : (s.oPush b0 b1 b2 b3).status = s.status := rfl
@[simp] theorem State.oPush_ififo : (s.oPush b0 b1 b2 b3).ififo = s.ififo := rfl
@[simp] theorem State.oPush_ofifo : (s.oPush b0 b1 b2 b3).ofifo = s.ofifo ++ [b0, b1, b2, b3] := rfl
@[simp] theorem State.oPush_table : (s.oPush b0 b1 b2 b3).table = s.table := rfl
@[simp] theorem State.oPush_script : (s.oPush b0 b1 b2 b3).script = s.script := rfl
@[simp] theorem State.oPush_answers : (s.oPush b0 b1 b2 b3).answers = s.answers := rfl
end oPush

section takeFault
variable (s : State) (eop estage : Byte) (r : Raise)
@[simp] theorem State.takeFault_px : (s.takeFault eop estage r).px = s.px := rfl
@[simp] theorem State.takeFault_q : (s.takeFault eop estage r).q = s.q := rfl
@[simp] theorem State.takeFault_w : (s.takeFault eop estage r).w = s.w := rfl
@[simp] theorem State.takeFault_cs : (s.takeFault eop estage r).cs = s.cs := rfl
@[simp] theorem State.takeFault_cf : (s.takeFault eop estage r).cf = s.cf := rfl
@[simp] theorem State.takeFault_den : (s.takeFault eop estage r).den = s.den := rfl
@[simp] theorem State.takeFault_err : (s.takeFault eop estage r).status.err = true := rfl
@[simp] theorem State.takeFault_sat : (s.takeFault eop estage r).status.sat = s.status.sat := rfl
@[simp] theorem State.takeFault_cause : (s.takeFault eop estage r).status.cause = r.cause.code := rfl
@[simp] theorem State.takeFault_eop : (s.takeFault eop estage r).status.eop = eop := rfl
@[simp] theorem State.takeFault_estage : (s.takeFault eop estage r).status.estage = estage := rfl
@[simp] theorem State.takeFault_einfo : (s.takeFault eop estage r).status.einfo = r.info := rfl
@[simp] theorem State.takeFault_ififo : (s.takeFault eop estage r).ififo = s.ififo := rfl
@[simp] theorem State.takeFault_ofifo : (s.takeFault eop estage r).ofifo = s.ofifo := rfl
@[simp] theorem State.takeFault_table : (s.takeFault eop estage r).table = s.table := rfl
@[simp] theorem State.takeFault_script : (s.takeFault eop estage r).script = s.script := rfl
@[simp] theorem State.takeFault_answers : (s.takeFault eop estage r).answers = s.answers := rfl
end takeFault

section resetCore
variable (s : State)
@[simp] theorem State.resetCore_px : s.resetCore.px = State.reset.px := rfl
@[simp] theorem State.resetCore_q : s.resetCore.q = State.reset.q := rfl
@[simp] theorem State.resetCore_w : s.resetCore.w = State.reset.w := rfl
@[simp] theorem State.resetCore_cs : s.resetCore.cs = State.reset.cs := rfl
@[simp] theorem State.resetCore_cf : s.resetCore.cf = State.reset.cf := rfl
@[simp] theorem State.resetCore_den : s.resetCore.den = State.reset.den := rfl
@[simp] theorem State.resetCore_status : s.resetCore.status = State.reset.status := rfl
@[simp] theorem State.resetCore_ififo : s.resetCore.ififo = State.reset.ififo := rfl
@[simp] theorem State.resetCore_ofifo : s.resetCore.ofifo = State.reset.ofifo := rfl
@[simp] theorem State.resetCore_table : s.resetCore.table = s.table := rfl
@[simp] theorem State.resetCore_script : s.resetCore.script = s.script := rfl
@[simp] theorem State.resetCore_answers : s.resetCore.answers = s.answers := rfl
end resetCore

end Sys2Proof.Machine
end

