-- ==== Sys2Proof/Laws/Ops.lean ====
section
/-! SUPPORT. What the shared operations can do, said once: running stages, running a command, the stages
of the composite operations. -/

namespace Sys2Proof.Machine

open Sys2Proof

section stages
variable (eop estage : Byte) (op : State → Except Raise State)
  (rest : List (Byte × (State → Except Raise State))) (s : State)

@[simp] theorem runStages_nil : runStages eop [] s = s := rfl

/-- A stage that completes hands its state to the rest. -/
theorem runStages_ok {s' : State} (h : op s = .ok s') :
    runStages eop ((estage, op) :: rest) s = runStages eop rest s' := by
  simp [runStages, h]

/-- A stage that raises ends the command with the fault recorded on the state before it. -/
theorem runStages_error {r : Raise} (h : op s = .error r) :
    runStages eop ((estage, op) :: rest) s = s.takeFault eop estage r := by
  simp [runStages, h]

/-- A property that every stage and the fault entry keep is kept by the whole list. -/
theorem runStages_keeps (P : State → Prop) (stages : List (Byte × (State → Except Raise State)))
    (hstage : ∀ e ∈ stages, ∀ s s', P s → e.2 s = .ok s' → P s')
    (hfault : ∀ s eop estage r, P s → P (s.takeFault eop estage r)) (hs : P s) :
    P (runStages eop stages s) := by
  induction stages generalizing s with
  | nil => exact hs
  | cons e rest ih =>
    obtain ⟨estage, op⟩ := e
    cases h : op s with
    | error r => rw [runStages_error _ _ _ _ _ h]; exact hfault _ _ _ _ hs
    | ok s' =>
      rw [runStages_ok _ _ _ _ _ h]
      exact ih _ (fun e he => hstage e (List.mem_cons_of_mem _ he))
        (hstage (estage, op) List.mem_cons_self s s' hs h)

end stages

section command
variable (eop : Byte) (stages : List (Byte × (State → Except Raise State))) (s : State)

/-- In the abort state a command is ignored. -/
theorem runCommand_aborted (h : s.status.err = true) : runCommand eop stages s = .next s := by
  simp [runCommand, h]

/-- Outside the abort state a command runs its stages. -/
theorem runCommand_running (h : s.status.err = false) :
    runCommand eop stages s = .next (runStages eop stages s) := by
  simp [runCommand, h]

/-- All a command can do. -/
theorem runCommand_cases {s' : State} (h : runCommand eop stages s = .next s') :
    (s.status.err = true ∧ s' = s) ∨ (s.status.err = false ∧ s' = runStages eop stages s) := by
  cases he : s.status.err with
  | true => rw [runCommand_aborted _ _ _ he] at h; cases h; exact .inl ⟨rfl, rfl⟩
  | false => rw [runCommand_running _ _ _ he] at h; cases h; exact .inr ⟨rfl, rfl⟩

end command

section stageOps
variable {k : Pos} {s s' : State} {r : Raise}

theorem stageCscf_ok (h : stageCscf k s = .ok s') :
    s.den ≠ 0 ∧ s' = s.setCs (s.cs.set k (forwardSample (s.px.get k) s.den)) := by
  unfold stageCscf at h
  split at h
  · cases h
  · rename_i hd; cases h; exact ⟨hd, rfl⟩

theorem stageCsci_ok (h : stageCsci k s = .ok s') :
    s.den ≠ 0 ∧ s' = (s.setPx (s.px.set k (inversePixel (s.cs.get k) s.den))).setStatus
      (s.status.noteClamp (inverseClamps (s.cs.get k) s.den)) := by
  unfold stageCsci at h
  split at h
  · cases h
  · rename_i hd; cases h; exact ⟨hd, rfl⟩

theorem stageBtf_ok (h : stageBtf s = .ok s') : s' = s.setCf (forwardBlock s.cs) := by
  cases h; rfl

theorem stageBti_ok (h : stageBti s = .ok s') : s' = s.setCs (inverseBlock s.cf) := by
  cases h; rfl

theorem stageQnt_ok (h : stageQnt s = .ok s') : s' = s.setQ (quantised s.table s.cf) := by
  simp only [stageQnt] at h
  split at h
  · cases h
  · cases h; rfl

theorem stageDqn_ok (h : stageDqn s = .ok s') :
    badIndex s.q.pb = false ∧ badIndex s.q.pr = false ∧ s' = s.setCf (dequantised s.table s.q) := by
  unfold stageDqn at h
  split at h
  · cases h
  · split at h
    · cases h
    · rename_i h1 h2
      cases h
      exact ⟨by simpa using h1, by simpa using h2, rfl⟩

theorem stagePack_ok (h : stagePack s = .ok s') :
    firstUnfit s.q = none ∧ s' = s.setW (packed s.q) := by
  unfold stagePack at h
  split at h
  · cases h
  · rename_i hf; cases h; exact ⟨hf, rfl⟩

theorem stageUnpk_ok (h : stageUnpk s = .ok s') : s' = s.setQ (unpacked s.w) := by
  cases h; rfl

theorem stageSer_ok (h : stageSer s = .ok s') :
    s' = s.oPush (s.w.extractLsb' 24 8) (s.w.extractLsb' 16 8) (s.w.extractLsb' 8 8)
      (s.w.extractLsb' 0 8) := by
  cases h; rfl

theorem stageDes_ok (h : stageDes s = .ok s') :
    ∃ b0 b1 b2 b3 rest, s.ififo = b0 :: b1 :: b2 :: b3 :: rest ∧
      s' = (s.setIfifo rest).setW (wordOfBytes b0 b1 b2 b3) := by
  unfold stageDes at h
  split at h
  · cases h
  · rename_i b0 b1 b2 b3 rest hp
    cases h
    refine ⟨b0, b1, b2, b3, rest, ?_, rfl⟩
    unfold iPop4 at hp
    split at hp
    · rename_i hq; cases hp; exact hq
    · cases hp

end stageOps

end Sys2Proof.Machine
end

