-- ==== Sys2Proof/Laws/Exec.lean ====
section
/-! SUPPORT. What an instruction can do, said once: it writes registers through the setters of Machine/Ops
or records a fault, so a property that those keep is kept by every instruction but RST. -/

namespace Sys2Proof.Machine

open Sys2Proof

/-- The writes an instruction other than RST is made of keep the property `P`. -/
structure WritesKeep (P : State → Prop) : Prop where
  cs : ∀ s x, P s → P (s.setCs x)
  cfForward : ∀ s c, P s → P (s.setCf (forwardBlock c))
  cfDequantised : ∀ s t q, P s → P (s.setCf (dequantised t q))
  q : ∀ s x, P s → P (s.setQ x)
  w : ∀ s x, P s → P (s.setW x)
  px : ∀ s x, P s → P (s.setPx x)
  sat : ∀ (s : State) (c : Bool), P s → P (s.setStatus (s.status.noteClamp c))
  ififo : ∀ s x, P s → P (s.setIfifo x)
  ofifo : ∀ s x, P s → P (s.setOfifo x)
  fault : ∀ s eop estage r, P s → P (s.takeFault eop estage r)

/-- A command whose every stage keeps `P` keeps `P`. -/
theorem runCommand_keeps {P : State → Prop} {eop : Byte} {stages : List (Byte × (State → Except Raise State))}
    {s t : State} (hstage : ∀ e ∈ stages, ∀ s s', P s → e.2 s = .ok s' → P s')
    (hfault : ∀ s eop estage r, P s → P (s.takeFault eop estage r)) (hs : P s)
    (h : runCommand eop stages s = .next t) : P t := by
  rcases runCommand_cases _ _ _ h with ⟨_, rfl⟩ | ⟨_, rfl⟩
  · exact hs
  · exact runStages_keeps _ _ P _ hstage hfault hs

section stages
variable {P : State → Prop} (hw : WritesKeep P)
include hw

theorem stageCscf_keeps (k : Pos) (s s' : State) (hs : P s) (h : stageCscf k s = .ok s') : P s' := by
  obtain ⟨_, rfl⟩ := stageCscf_ok h; exact hw.cs _ _ hs
theorem stageCsci_keeps (k : Pos) (s s' : State) (hs : P s) (h : stageCsci k s = .ok s') : P s' := by
  obtain ⟨_, rfl⟩ := stageCsci_ok h; exact hw.sat (s.setPx _) _ (hw.px _ _ hs)
theorem stageBtf_keeps (s s' : State) (hs : P s) (h : stageBtf s = .ok s') : P s' := by
  rw [stageBtf_ok h]; exact hw.cfForward _ _ hs
theorem stageBti_keeps (s s' : State) (hs : P s) (h : stageBti s = .ok s') : P s' := by
  rw [stageBti_ok h]; exact hw.cs _ _ hs
theorem stageQnt_keeps (s s' : State) (hs : P s) (h : stageQnt s = .ok s') : P s' := by
  rw [stageQnt_ok h]; exact hw.q _ _ hs
theorem stageDqn_keeps (s s' : State) (hs : P s) (h : stageDqn s = .ok s') : P s' := by
  obtain ⟨_, _, rfl⟩ := stageDqn_ok h; exact hw.cfDequantised _ _ _ hs
theorem stagePack_keeps (s s' : State) (hs : P s) (h : stagePack s = .ok s') : P s' := by
  obtain ⟨_, rfl⟩ := stagePack_ok h; exact hw.w _ _ hs
theorem stageUnpk_keeps (s s' : State) (hs : P s) (h : stageUnpk s = .ok s') : P s' := by
  rw [stageUnpk_ok h]; exact hw.q _ _ hs
theorem stageSer_keeps (s s' : State) (hs : P s) (h : stageSer s = .ok s') : P s' := by
  rw [stageSer_ok h]; exact hw.ofifo _ _ hs
theorem stageDes_keeps (s s' : State) (hs : P s) (h : stageDes s = .ok s') : P s' := by
  obtain ⟨_, _, _, _, _, _, rfl⟩ := stageDes_ok h; exact hw.w _ _ (hw.ififo _ _ hs)

/-- A command of one stage that keeps `P` keeps `P`. -/
theorem runCommand_one_keeps {eop estage : Byte} {op : State → Except Raise State} {s t : State}
    (hop : ∀ s s', P s → op s = .ok s' → P s') (hs : P s)
    (h : runCommand eop [(estage, op)] s = .next t) : P t :=
  runCommand_keeps (by simpa using hop) hw.fault hs h

/-- Every instruction but RST keeps a property that its writes and the fault entry keep. -/
theorem exec_keeps {i : Instr} (hi : i ≠ .rst) {s t : State} (hs : P s) (h : exec i s = .next t) : P t := by
  cases i with
  | rst => exact absurd rfl hi
  | nop => exact runCommand_keeps (by simp) hw.fault hs h
  | cscf k => exact runCommand_one_keeps hw (stageCscf_keeps hw k) hs h
  | csci k => exact runCommand_one_keeps hw (stageCsci_keeps hw k) hs h
  | btf => exact runCommand_one_keeps hw (stageBtf_keeps hw) hs h
  | bti => exact runCommand_one_keeps hw (stageBti_keeps hw) hs h
  | qnt => exact runCommand_one_keeps hw (stageQnt_keeps hw) hs h
  | dqn => exact runCommand_one_keeps hw (stageDqn_keeps hw) hs h
  | pack => exact runCommand_one_keeps hw (stagePack_keeps hw) hs h
  | unpk => exact runCommand_one_keeps hw (stageUnpk_keeps hw) hs h
  | ser => exact runCommand_one_keeps hw (stageSer_keeps hw) hs h
  | des => exact runCommand_one_keeps hw (stageDes_keeps hw) hs h
  | encb =>
    refine runCommand_keeps (stages := encbStages) ?_ hw.fault hs h
    intro e he
    simp only [encbStages, List.mem_cons, List.not_mem_nil, or_false] at he
    rcases he with rfl | rfl | rfl | rfl | rfl | rfl | rfl | rfl
    exacts [stageCscf_keeps hw _, stageCscf_keeps hw _, stageCscf_keeps hw _, stageCscf_keeps hw _,
      stageBtf_keeps hw, stageQnt_keeps hw, stagePack_keeps hw, stageSer_keeps hw]
  | decb =>
    refine runCommand_keeps (stages := decbStages) ?_ hw.fault hs h
    intro e he
    simp only [decbStages, List.mem_cons, List.not_mem_nil, or_false] at he
    rcases he with rfl | rfl | rfl | rfl | rfl | rfl | rfl | rfl
    exacts [stageDes_keeps hw, stageUnpk_keeps hw, stageDqn_keeps hw, stageBti_keeps hw,
      stageCsci_keeps hw _, stageCsci_keeps hw _, stageCsci_keeps hw _, stageCsci_keeps hw _]

end stages

end Sys2Proof.Machine
end

