-- ==== Sys2Proof/Laws/Fields.lean ====
section
/-! SUPPORT. The bits of an insert and of an extract, the checks of PACK in numbers, and values that pass
through a 32-bit register unchanged. -/

namespace Sys2Proof.Machine

open Sys2Proof

/-- Bit by bit, an unsigned insert writes the field and leaves the rest. -/
theorem newu_getLsbD (w : Word) {n lsb : Nat} {v : Int} (h0 : 0 ≤ v) (h1 : v < 2 ^ n)
    {i : Nat} (hi : i < 32) :
    (newu w n lsb v).getLsbD i =
      if lsb ≤ i ∧ i < lsb + n then v.toNat.testBit (i - lsb) else w.getLsbD i := by
  obtain ⟨m, rfl⟩ := Int.eq_ofNat_of_zero_le h0
  have hm : m < 2 ^ n := by exact_mod_cast h1
  have e : BitVec.ofInt 32 ((m : Int) * 2 ^ lsb) = BitVec.ofNat 32 (m * 2 ^ lsb) := by
    have : ((m : Int) * 2 ^ lsb) = ((m * 2 ^ lsb : Nat) : Int) := by push_cast; rfl
    rw [this, BitVec.ofInt_natCast]
  simp only [newu, fieldMask, e, BitVec.getLsbD_or, BitVec.getLsbD_and, BitVec.getLsbD_not, hi, decide_true,
    Bool.true_and, BitVec.getLsbD_ofNat, Nat.testBit_mul_two_pow, Nat.testBit_two_pow_sub_one,
    Int.toNat_natCast]
  by_cases h2 : lsb ≤ i
  · by_cases h3 : i < lsb + n
    · have : i - lsb < n := by omega
      simp [h2, h3, this]
    · have : ¬ i - lsb < n := by omega
      have hz : m.testBit (i - lsb) = false :=
        Nat.testBit_lt_two_pow (lt_of_lt_of_le hm (Nat.pow_le_pow_right (by norm_num) (by omega)))
      simp [h2, h3, this, hz]
  · simp [h2]

/-- A signed insert is the unsigned insert of the value modulo 2^N. -/
theorem news_eq_newu (w : Word) (n lsb : Nat) (v : Int) : news w n lsb v = newu w n lsb (v % 2 ^ n) := rfl

/-- Bit by bit, an extract reads the field. -/
theorem getu_testBit (w : Word) (n lsb i : Nat) :
    (getu w n lsb).testBit i = (decide (i < n) && w.getLsbD (lsb + i)) := by
  simp only [getu, Nat.testBit_mod_two_pow, Nat.testBit_div_two_pow, BitVec.getLsbD]
  rw [Nat.add_comm]

theorem getu_lt (w : Word) (n lsb : Nat) : getu w n lsb < 2 ^ n := Nat.mod_lt _ (by positivity)

/-- Sign extension undoes the reduction modulo 2^N of a value that fits a signed field. -/
theorem sextN_emod {n : Nat} {v : Int} (hn : 1 ≤ n) (h1 : -(2 ^ (n - 1)) ≤ v) (h2 : v < 2 ^ (n - 1)) :
    sextN n (v % 2 ^ n).toNat = v := by
  obtain ⟨m, rfl⟩ : ∃ m, n = m + 1 := ⟨n - 1, by omega⟩
  simp only [sextN, Nat.add_sub_cancel] at *
  have hp : (0 : Int) < 2 ^ m := by positivity
  have e : (2 : Int) ^ (m + 1) = 2 * 2 ^ m := by ring
  have en : ((2 ^ m : Nat) : Int) = (2 : Int) ^ m := by push_cast; rfl
  rw [e]
  rcases le_or_gt 0 v with h | h
  · rw [Int.emod_eq_of_lt h (by omega)]
    split <;> omega
  · have : v % (2 * 2 ^ m) = v + 2 * 2 ^ m := by
      rw [← Int.add_mul_emod_self_left v (2 * 2 ^ m) 1, mul_one]
      exact Int.emod_eq_of_lt (by omega) (by omega)
    rw [this]
    split <;> omega

/-- An integer that fits a 32-bit register is read back from it. -/
theorem ofInt32_toInt {n : Int} (h1 : -2147483648 ≤ n) (h2 : n ≤ 2147483647) :
    (BitVec.ofInt 32 n).toInt = n := by
  rw [BitVec.toInt_ofInt]; simp [Int.bmod]; omega

theorem chromaWord_toInt (t : ChromaTable) (x : QNum) : (chromaWord t x).toInt = (cqIndex t x).val := by
  have := (cqIndex t x).isLt
  simp only [chromaWord]
  rw [BitVec.toInt_eq_toNat_cond, BitVec.toNat_ofNat]; split <;> omega

/-- The index DQN takes from a register that holds an index. -/
theorem indexOf_eq {v : Word} {i : Fin 16} (h : v.toInt = i.val) : indexOf v = i := by
  have hi := i.isLt
  have hv : v.toNat = i.val := by
    rw [BitVec.toInt_eq_toNat_cond] at h
    have := v.isLt
    split at h <;> omega
  apply Fin.ext
  simp [indexOf, hv]

/-- The six checks of PACK as comparisons. -/
theorem firstUnfit_eq (q : Quant) : firstUnfit q =
    if ¬(0 ≤ q.a.toInt ∧ q.a.toInt < 512) then some 0
    else if ¬(-16 ≤ q.b.toInt ∧ q.b.toInt < 16) then some 1
    else if ¬(-16 ≤ q.c.toInt ∧ q.c.toInt < 16) then some 2
    else if ¬(-16 ≤ q.d.toInt ∧ q.d.toInt < 16) then some 3
    else if ¬(0 ≤ q.pb.toInt ∧ q.pb.toInt < 16) then some 4
    else if ¬(0 ≤ q.pr.toInt ∧ q.pr.toInt < 16) then some 5
    else none := by
  simp only [firstUnfit, fitsu, fitss, decide_eq_true_eq]; rfl

end Sys2Proof.Machine
end

