-- ==== Sys2Proof/Laws/Operands.lean ====
section
/-! SUPPORT. The position operand, the register map, and reading a register back: one lemma per shared
operation. -/

namespace Sys2Proof.Machine

open Sys2Proof

section quad
variable {α : Type} (x : Quad α) (k j : Pos) (v : α)

@[simp] theorem Quad.get_set_same : (x.set k v).get k = v := by cases k <;> rfl

theorem Quad.get_set_other (h : j ≠ k) : (x.set k v).get j = x.get j := by
  cases j <;> cases k <;> first | rfl | exact absurd rfl h

theorem Quad.ext_get {x y : Quad α} (h : ∀ k, x.get k = y.get k) : x = y := by
  cases x; cases y
  have h0 := h .tl; have h1 := h .tr; have h2 := h .bl; have h3 := h .br
  simp only [Quad.get] at h0 h1 h2 h3
  simp [h0, h1, h2, h3]

/-- Setting a position to what it holds changes nothing. -/
@[simp] theorem Quad.set_get : x.set k (x.get k) = x := by cases k <;> rfl

@[simp] theorem Quad.get_all : (Quad.all v).get k = v := by cases k <;> rfl

end quad

@[simp] theorem Pos.ofK_toK (k : Pos) : Pos.ofK k.toK = k := by cases k <;> rfl

@[simp] theorem Pixel.get_set_same (p : Pixel) (c : Chan) (v : Half) : (p.set c v).get c = v := by
  cases c <;> rfl

theorem Pixel.get_set_other (p : Pixel) {c d : Chan} (v : Half) (h : d ≠ c) :
    (p.set c v).get d = p.get d := by
  cases c <;> cases d <;> first | rfl | exact absurd rfl h

@[simp] theorem Quant.get_set_same (q : Quant) (f : QField) (v : Word) : (q.set f v).get f = v := by
  cases f <;> rfl

theorem Quant.get_set_other (q : Quant) {f g : QField} (v : Word) (h : g ≠ f) :
    (q.set f v).get g = q.get g := by
  cases f <;> cases g <;> first | rfl | exact absurd rfl h

end Sys2Proof.Machine
end

