-- ==== Sys2Proof/Laws/PerInstr.lean ====
section
/-! SUPPORT. Statements made per instruction about the instruction as syntax. -/

namespace Sys2Proof.Laws.LegalWord

open Sys2Proof

/-- The command word of the instruction is legal by the three conditions of spec/30_encoding.md R94. -/
def Statement (i : Instr) : Prop := (Command.ofWord (encode i)).wellFormed = true

theorem nop : Statement .nop := by unfold Statement; decide
theorem cscf (k : Pos) : Statement (.cscf k) := by unfold Statement; cases k <;> decide
theorem csci (k : Pos) : Statement (.csci k) := by unfold Statement; cases k <;> decide
theorem btf : Statement .btf := by unfold Statement; decide
theorem bti : Statement .bti := by unfold Statement; decide
theorem qnt : Statement .qnt := by unfold Statement; decide
theorem dqn : Statement .dqn := by unfold Statement; decide
theorem pack : Statement .pack := by unfold Statement; decide
theorem unpk : Statement .unpk := by unfold Statement; decide
theorem ser : Statement .ser := by unfold Statement; decide
theorem des : Statement .des := by unfold Statement; decide
theorem encb : Statement .encb := by unfold Statement; decide
theorem decb : Statement .decb := by unfold Statement; decide
theorem rst : Statement .rst := by unfold Statement; decide

end Sys2Proof.Laws.LegalWord
end

