-- ==== Sys2Proof/Laws/Step.lean ====
section
/-! SUPPORT. What a step can do, said once: the cases of a step that answers a next state. -/

namespace Sys2Proof.Machine

open Sys2Proof

/-- The ways a step from `s` can answer the next state `s'`, one for each kind of host transaction. -/
inductive StepCase (s : State) : State → Prop
  /-- No transaction is outstanding. -/
  | idle (hs : s.script = []) : StepCase s s
  /-- A bus read. -/
  | read (addr : Nat) (rest : List Transaction) (hs : s.script = .read addr :: rest) :
      StepCase s (busRead addr (s.setScript rest))
  /-- A bus write where no register is mapped. -/
  | writeUnmapped (addr : Nat) (v : Word) (rest : List Transaction)
      (hs : s.script = .write addr v :: rest) (hr : regAt addr = none) :
      StepCase s ((s.setScript rest).answer .busErr)
  /-- A legal command. -/
  | command (addr : Nat) (v : Word) (rest : List Transaction) (i : Instr) (s' : State)
      (hs : s.script = .write addr v :: rest) (hr : regAt addr = some .cmd) (hi : decode v = .ok i)
      (he : exec i ((s.setScript rest).answer .okay) = .next s') : StepCase s s'
  /-- An illegal command outside the abort state. -/
  | illegal (addr : Nat) (v : Word) (rest : List Transaction) (e : Illegal)
      (hs : s.script = .write addr v :: rest) (hr : regAt addr = some .cmd) (hi : decode v = .error e)
      (ha : s.status.err = false) :
      StepCase s (((s.setScript rest).answer .okay).takeFault (v.extractLsb' 0 8) (v.extractLsb' 0 8)
        ⟨.illegalCommand, 0⟩)
  /-- An illegal command or a write to a register other than CMD, in the abort state. -/
  | ignored (addr : Nat) (v : Word) (rest : List Transaction) (r : Reg)
      (hs : s.script = .write addr v :: rest) (hr : regAt addr = some r)
      (hi : r = .cmd → ∃ e, decode v = .error e) (ha : s.status.err = true) :
      StepCase s ((s.setScript rest).answer .okay)
  /-- A write to a register other than CMD outside the abort state. -/
  | writeReg (addr : Nat) (v : Word) (rest : List Transaction) (r : Reg)
      (hs : s.script = .write addr v :: rest) (hr : regAt addr = some r) (hc : r ≠ .cmd)
      (ha : s.status.err = false) : StepCase s (((s.setScript rest).answer .okay).writeReg v r)
  /-- Bytes fed to the input stream. -/
  | feed (bytes : List Byte) (rest : List Transaction) (hs : s.script = .feed bytes :: rest) :
      StepCase s (Machine.feed bytes (s.setScript rest))
  /-- Bytes drained from the output stream. -/
  | drain (n : Nat) (rest : List Transaction) (hs : s.script = .drain n :: rest)
      (hn : n ≤ s.ofifo.length) :
      StepCase s (((s.setScript rest).setOfifo (s.ofifo.drop n)).answer (.bytes (s.ofifo.take n)))
  /-- A hardware reset. -/
  | hreset (rest : List Transaction) (hs : s.script = .hreset :: rest) :
      StepCase s (s.setScript rest).resetCore

/-- Every bus write that answers a next state is one of the cases of `StepCase`. -/
theorem busWrite_cases {s s' : State} {addr : Nat} {v : Word} {rest : List Transaction}
    (hs : s.script = .write addr v :: rest) (h : busWrite exec addr v (s.setScript rest) = .next s') :
    StepCase s s' := by
  unfold busWrite at h
  split at h
  · rename_i hr
    cases h
    exact .writeUnmapped addr v rest hs hr
  · rename_i hr
    unfold dispatchCommand at h
    split at h
    · rename_i i hi
      exact .command addr v rest i s' hs hr hi h
    · rename_i e hi
      cases ha : s.status.err
      · simp only [State.answer_status, State.setScript_status, ha, Bool.false_eq_true, if_false] at h
        cases h
        exact .illegal addr v rest e hs hr hi ha
      · simp only [State.answer_status, State.setScript_status, ha, if_true] at h
        cases h
        exact .ignored addr v rest .cmd hs hr (fun _ => ⟨e, hi⟩) ha
  · rename_i r hc hr
    have hc : r ≠ .cmd := hc
    cases ha : s.status.err
    · simp only [State.setScript_status, ha, Bool.false_eq_true, if_false] at h
      cases h
      exact .writeReg addr v rest r hs hr hc ha
    · simp only [State.setScript_status, ha, if_true] at h
      cases h
      exact .ignored addr v rest r hs hr (fun h => absurd h hc) ha

/-- A step that answers a next state did one of the things of `StepCase`. -/
theorem step_cases {s s' : State} (h : step s = .next s') : StepCase s s' := by
  unfold step stepWith at h
  split at h
  · rename_i hs; cases h; exact .idle hs
  · rename_i t rest hs
    cases t with
    | read addr => cases h; exact .read addr rest hs
    | write addr v => exact busWrite_cases hs h
    | feed bytes => cases h; exact .feed bytes rest hs
    | drain n =>
      by_cases hn : n ≤ s.ofifo.length
      · simp only [transact, Machine.drain, State.setScript_ofifo, hn, if_true] at h
        cases h
        exact .drain n rest hs hn
      · simp [transact, Machine.drain, hn] at h
    | hreset => cases h; exact .hreset rest hs

end Sys2Proof.Machine
end

