-- ==== Sys2Proof/Tests/Slice0.lean ====
section
/-! SUPPORT. Tests of the model, with expected results from spec/95_test_vectors.md or by hand from the rule
named, and for every obligation with hypotheses a concrete state and operands that meet them. The vectors
that involve chroma use the spec's default table. -/

namespace Sys2Proof.Tests

open Sys2Proof Sys2Proof.Machine

/-! ## Helpers -/

/-- The next state of an outcome. -/
def next? : Host.Outcome State Fault Refusal → Option State
  | .next s => some s
  | .fault _ => none
  | .refused _ => none

/-- The refusal of an outcome. -/
def refusal? : Host.Outcome State Fault Refusal → Option Refusal
  | .next _ => none
  | .fault _ => none
  | .refused r => some r

/-- The state after an instruction. -/
def after (i : Instr) (s : State) : Option State := next? (exec i s)

/-- The state after one host transaction, the only one outstanding. -/
def answering (t : Transaction) (s : State) : Option State := next? (step (s.setScript [t]))

/-- Reset with DEN = 255 and the spec's default table. -/
def base : State := { State.reset with table := ChromaTable.specDefault, den := 255 }

/-- A state in which every register holds something. -/
def sample : State :=
  { base with
    px := ⟨⟨1, 2, 3⟩, ⟨4, 5, 6⟩, ⟨7, 8, 9⟩, ⟨10, 11, 255⟩⟩
    q := ⟨256, 3, 15, 7, 7, 7⟩
    w := 0x800DE777
    cs := ⟨⟨299/1000, 0, 0⟩, ⟨587/1000, 0, 0⟩, ⟨114/1000, 0, 0⟩, ⟨1, 0, 0⟩⟩
    cf := ⟨1/2, 57/1000, 2935/10000, 1495/10000, 0, 0⟩
    ififo := [0x80, 0x02, 0x20, 0x77, 0xAA]
    ofifo := [0xB1, 0xB2] }

/-- `sample` in the abort state, after CSCF 0 found DEN = 0 (spec/60_exceptions.md R220, R222). -/
def stopped : State := sample.withFaultRecord 2 0x01 0x01 0

/-- Four grey pixels. -/
def grey (a b c d : Half) : Quad Pixel := ⟨⟨a, a, a⟩, ⟨b, b, b⟩, ⟨c, c, c⟩, ⟨d, d, d⟩⟩

/-! ## Well-formedness: an ill-formed command for each check (spec/30_encoding.md R94, vector M6) -/

theorem test_wf_reserved_bit : (Command.ofWord 0x00000400).reservedClear = false ∧
    (Command.ofWord 0x00000400).wellFormed = false ∧ decode 0x00000400 = .error .reservedBits := by decide
theorem test_wf_unknown_opcode : (Command.ofWord 0x0000000B).opcodeKnown = false ∧
    (Command.ofWord 0x0000000B).wellFormed = false ∧ decode 0x0000000B = .error .unknownOpcode := by decide
theorem test_wf_unexpected_k : (Command.ofWord 0x00000103).kAllowed = false ∧
    (Command.ofWord 0x00000103).wellFormed = false ∧ decode 0x00000103 = .error .unexpectedK := by decide
theorem test_wf_rst_with_k : decode 0x000001FF = .error .unexpectedK := by decide
theorem test_wf_legal : (Command.ofWord 0x00000301).wellFormed = true := by decide

/-! ## Decoding: words written out from spec/30_encoding.md R91 and R93, RSV, K and OPC in this order -/

theorem test_decode_nop : decode (0b0000000000000000000000#22 ++ 0b00#2 ++ 0b00000000#8) = .ok .nop := by decide
theorem test_decode_cscf : decode (0b0000000000000000000000#22 ++ 0b00#2 ++ 0b00000001#8) = .ok (.cscf .tl) ∧
    decode (0b0000000000000000000000#22 ++ 0b01#2 ++ 0b00000001#8) = .ok (.cscf .tr) := by decide
theorem test_decode_csci : decode (0b0000000000000000000000#22 ++ 0b10#2 ++ 0b00000010#8) = .ok (.csci .bl) ∧
    decode (0b0000000000000000000000#22 ++ 0b11#2 ++ 0b00000010#8) = .ok (.csci .br) := by decide
theorem test_decode_btf : decode (0b0000000000000000000000#22 ++ 0b00#2 ++ 0b00000011#8) = .ok .btf := by decide
theorem test_decode_bti : decode (0b0000000000000000000000#22 ++ 0b00#2 ++ 0b00000100#8) = .ok .bti := by decide
theorem test_decode_qnt : decode (0b0000000000000000000000#22 ++ 0b00#2 ++ 0b00000101#8) = .ok .qnt := by decide
theorem test_decode_dqn : decode (0b0000000000000000000000#22 ++ 0b00#2 ++ 0b00000110#8) = .ok .dqn := by decide
theorem test_decode_pack : decode (0b0000000000000000000000#22 ++ 0b00#2 ++ 0b00000111#8) = .ok .pack := by decide
theorem test_decode_unpk : decode (0b0000000000000000000000#22 ++ 0b00#2 ++ 0b00001000#8) = .ok .unpk := by decide
theorem test_decode_ser : decode (0b0000000000000000000000#22 ++ 0b00#2 ++ 0b00001001#8) = .ok .ser := by decide
theorem test_decode_des : decode (0b0000000000000000000000#22 ++ 0b00#2 ++ 0b00001010#8) = .ok .des := by decide
theorem test_decode_encb : decode (0b0000000000000000000000#22 ++ 0b00#2 ++ 0b00010000#8) = .ok .encb := by decide
theorem test_decode_decb : decode (0b0000000000000000000000#22 ++ 0b00#2 ++ 0b00010001#8) = .ok .decb := by decide
theorem test_decode_rst : decode (0b0000000000000000000000#22 ++ 0b00#2 ++ 0b11111111#8) = .ok .rst := by decide
theorem test_decode_table_word : decodeTableWord 32 0x00000301 = some (.cscf .br) ∧
    decodeTableWord 32 0x00000400 = none := by decide
theorem test_fetch_word : (next? (step (base.withFetchWord 32 0x00000009))).map (·.ofifo) =
    some [0, 0, 0, 0] := by decide

/-! ## Numeric functions (spec/95_test_vectors.md section 2) -/

theorem test_rnd : [1/2, 5/2, 49/100, -1/2, -5/2, -49/100, 255 + 1/2].map rnd = [1, 3, 0, -1, -3, 0, 256] := by
  decide +kernel
theorem test_clamp : clampDetail (1/2) = 3/10 ∧ clampDetail (-32/100) = -(3/10) ∧
    clampDetail (29/100) = 29/100 ∧ clampInt (-4) 0 255 = 0 ∧ clampInt 258 0 255 = 255 := by decide +kernel
theorem test_cq_index : [-275/1000, -274/1000, 0, 1/10000, 275/1000, 2751/10000, 7].map
    (cqIndex ChromaTable.specDefault) = [0, 1, 7, 8, 14, 15, 15] := by decide +kernel
theorem test_insert : newu 0 9 23 511 = 0xFF800000 ∧ news 0 5 18 (-16) = 0x00400000 ∧
    news 0xFFFFFFFF 5 18 0 = 0xFF83FFFF ∧ newu 0 4 4 15 = 0x000000F0 := by decide
theorem test_extract : getu 0x800DE777 9 23 = 256 ∧ gets 0x80022077 5 13 = -15 ∧
    getu 0x800DE777 4 4 = 7 := by decide

/-! ## The instructions, at most two each -/

/-- NOP: spec/46_composite_system.md R200. -/
theorem test_nop : after .nop sample = some sample := by decide +kernel
/-- CSCF: vector C10. -/
theorem test_cscf : (after (.cscf .bl) { base with den := 1023, px := ⟨⟨0, 0, 0⟩, ⟨0, 0, 0⟩, ⟨12, 200, 77⟩, ⟨0, 0, 0⟩⟩ }).map
    (fun s => (s.cs.bl, s.cs.br)) =
    some (⟨2093/16500, -930551/31968750, -2624957/31968750⟩, ⟨0, 0, 0⟩) := by decide +kernel
/-- CSCF with DEN = 0: vector C13. -/
theorem test_cscf_fault : (after (.cscf .bl) { sample with den := 0 }).map (fun s => (s.status.word, s.cs)) =
    some (0x02010121, sample.cs) := by decide +kernel
/-- CSCI, clamped channels and SAT: vector Q1. -/
theorem test_csci : (after (.csci .tr) { base with cs := Quad.all ⟨0, -11/1000, -11/1000⟩ }).map
    (fun s => (s.px.tr, s.px.tl, s.status.word)) = some (⟨0, 3, 0⟩, ⟨0, 0, 0⟩, 2) := by decide +kernel
/-- CSCI with DEN = 0: vector C14. -/
theorem test_csci_fault : (after (.csci .br) { sample with den := 0 }).map (fun s => (s.status.word, s.px)) =
    some (0x03020221, sample.px) := by decide
/-- BTF: the example of spec/42_block_transform.md R160. -/
theorem test_btf : (after .btf sample).map (·.cf) = some ⟨1/2, 57/1000, 2935/10000, 1495/10000, 0, 0⟩ := by
  decide +kernel
/-- BTF, a clamp that acts: vector B9. -/
theorem test_btf_clamp : (after .btf { base with cs := ⟨⟨0, 0, 0⟩, ⟨1, 0, 0⟩, ⟨1, 0, 0⟩, ⟨0, 0, 0⟩⟩ }).map
    (·.cf) = some ⟨1/2, 0, 0, -3/10, 0, 0⟩ := by decide +kernel
/-- BTI: the example of spec/42_block_transform.md R162. -/
theorem test_bti : (after .bti { base with cf := ⟨256/511, 6/100, 3/10, 14/100, -11/1000, -11/1000⟩ }).map
    (·.cs) = some ⟨⟨7179/25550, -11/1000, -11/1000⟩, ⟨3071/5110, -11/1000, -11/1000⟩,
      ⟨3091/25550, -11/1000, -11/1000⟩, ⟨1023/1022, -11/1000, -11/1000⟩⟩ := by decide +kernel
/-- QNT, ties away from zero: vector Q16. -/
theorem test_qnt : (after .qnt { base with cf := ⟨12/10, 3/10, -3/10, 1/100, 5/10, -5/10⟩ }).map (·.q) =
    some ⟨613, 15, -15, 1, 15, 0⟩ := by decide +kernel
/-- QNT, a value beyond 32 bits: vector Q20. -/
theorem test_qnt_fault : (after .qnt { sample with cf := ⟨4202513, 0, 0, 0, 0, 0⟩ }).map
    (fun s => (s.status.word, s.q)) = some (0x00050511, sample.q) := by decide +kernel
/-- DQN, all four clamps: vector Q11. -/
theorem test_dqn : (after .dqn { base with q := ⟨-5, -16, 16, 100, 15, 0⟩ }).map (·.cf) =
    some ⟨0, -3/10, 3/10, 3/10, 35/100, -35/100⟩ := by decide +kernel
/-- DQN, both indices bad: vector Q15. -/
theorem test_dqn_fault : (after .dqn { sample with q := ⟨0, 0, 0, 0, 16, -1⟩ }).map
    (fun s => (s.status.word, s.cf)) = some (0x04060651, sample.cf) := by decide +kernel
/-- PACK: the example of spec/44_pack.md R180, over a negative field. -/
theorem test_pack : (after .pack sample).map (·.w) = some 0x800DE777 ∧
    (after .pack { base with q := ⟨0, -16, -16, -16, 0, 0⟩ }).map (·.w) = some 0x00421000 := by decide
/-- PACK, the first of several misfits: vector K18. -/
theorem test_pack_fault : (after .pack { sample with q := ⟨600, 99, 0, 0, 0, 77⟩ }).map
    (fun s => (s.status.word, s.w)) = some (0x00070711, sample.w) := by decide
/-- UNPK: the example of spec/44_pack.md R182. -/
theorem test_unpk : (after .unpk { base with w := 0x80022077 }).map (·.q) = some ⟨256, 0, -15, 0, 7, 7⟩ := by
  decide
/-- SER: the example of spec/45_serialize.md R190. -/
theorem test_ser : (after .ser sample).map (·.ofifo) = some [0xB1, 0xB2, 0x80, 0x0D, 0xE7, 0x77] := by
  decide
/-- DES: the example of spec/45_serialize.md R192. -/
theorem test_des : (after .des sample).map (fun s => (s.w, s.ififo)) = some (0x80022077, [0xAA]) := by
  decide
/-- DES, a short stream: vector X3. -/
theorem test_des_fault : (after .des { sample with ififo := [1, 2, 3] }).map
    (fun s => (s.status.word, s.w, s.ififo)) = some (0x000A0A41, sample.w, [1, 2, 3]) := by decide
/-- ENCB: vector V5. -/
theorem test_encb : (after .encb { base with
    px := ⟨⟨10, 20, 30⟩, ⟨40, 50, 60⟩, ⟨70, 80, 90⟩, ⟨100, 110, 120⟩⟩ }).map
    (fun s => (s.q, s.w, s.ofifo)) =
    some (⟨127, 6, 3, 0, 9, 6⟩, 0x3F986096, [0x3F, 0x98, 0x60, 0x96]) := by decide +kernel
/-- ENCB, a fault in the PACK stage: vector V16. -/
theorem test_encb_fault : (after .encb { base with px := grey 300 300 300 300, w := 0x11111111 }).map
    (fun s => (s.status.word, s.q, s.cf.a, s.w, s.ofifo)) =
    some (0x00071011, ⟨601, 0, 0, 0, 7, 7⟩, 20/17, 0x11111111, []) := by decide +kernel
/-- DECB: vector V10. -/
theorem test_decb : (after .decb { base with ififo := [0xDE, 0xAD, 0xBE, 0xEF] }).map
    (fun s => (s.q, s.px, s.status.word)) = some (⟨445, 11, 13, -2, 14, 15⟩,
      ⟨⟨215, 8, 180⟩, ⟨255, 161, 255⟩, ⟨255, 141, 255⟩, ⟨255, 253, 255⟩⟩, 2) := by decide +kernel
/-- DECB with DEN = 0: vector V13. -/
theorem test_decb_fault : (after .decb { base with den := 0, ififo := [0x80, 0x0D, 0xE7, 0x77] }).map
    (fun s => (s.status.word, s.ififo, s.w, s.cs.tl.y)) =
    some (0x00021121, [], 0x800DE777, 7179/25550) := by decide +kernel
/-- RST out of the abort state: vector M8. -/
theorem test_rst : (after .rst stopped) = some { base with den := 0 } := by decide +kernel

/-! ## The bus (spec/95_test_vectors.md section 9) -/

/-- Vectors M1 to M3: unmapped, misaligned and beyond the window. -/
theorem test_bus_error : [0x58, 0xFC, 0x02, 0x100].map (fun a => (answering (.read a) base).map (·.answers)) =
    [some [.busErr], some [.busErr], some [.busErr], some [.busErr]] ∧
    (answering (.write 0x09 1) base).map (fun s => (s.answers, s.den)) = some ([.busErr], 255) := by
  decide
/-- Section 3, bus width of channels. -/
theorem test_bus_width : (answering (.write 0x10 0xFFFF1234) base).map (·.px.tl.r) = some 0x1234 ∧
    (answering (.write 0x08 0x12345678) base).map (·.den) = some 0x5678 := by decide
/-- Vector M6. -/
theorem test_illegal : (answering (.write 0x00 0x80000001) sample).map (·.status.word) = some 0x00010131 ∧
    (answering (.write 0x00 0x00000310) sample).map (·.status.word) = some 0x00101031 := by decide
/-- Vector M9. -/
theorem test_near_reset_ignored : (answering (.write 0x00 0x000001FF) stopped).map (·.status) =
    some stopped.status := by decide
/-- Vector M10. -/
theorem test_hreset : (answering .hreset stopped) = some { base with den := 0 } := by decide +kernel

/-! ## Witnesses: for each obligation with hypotheses, a state and operands that meet them, clause by clause
at the bounds of its range. Each is named after the obligation. -/

theorem test_witness_DecodeInvertsEncode : decode 0x00000301 = .ok (.cscf .br) ∧
    (0x00000301 : Word) = encode (.cscf .br) := by decide

theorem test_witness_DecodeAcceptsLegalWordsOnly :
    (0x00000302 : Word).extractLsb' 10 22 = 0 ∧ (0x00000302 : Word).extractLsb' 0 8 = 0x02#8 ∧
    decode 0x00000302 = .ok (.csci .br) ∧ (0x00000400 : Word).extractLsb' 10 22 ≠ 0 := by decide

theorem test_witness_StepRunsDecodedInstruction :
    (sample.setScript [.write 0x00 0x00000009, .drain 1]).script = .write 0x00 0x00000009 :: [.drain 1] ∧
    decode 0x00000009 = .ok .ser ∧
    (next? (step (sample.setScript [.write 0x00 0x00000009, .drain 1]))).map (·.script) =
      some [.drain 1] := by decide

theorem test_witness_IllegalCommandIsRecorded :
    (sample.setScript [.write 0x00 0x00000103]).script = [.write 0x00 0x00000103] ∧
    sample.status.err = false ∧ (Command.ofWord 0x00000103).wellFormed = false ∧
    (answering (.write 0x00 0x00000103) sample).map (·.status.word) = some 0x00030331 := by decide

/-- All six clauses: the words beside 0x000000FF, that word, the first and last writable address, the first and
last readable one, a Feed, and a Drain of nothing and of all. -/
theorem test_witness_AbortStateIgnoresAllButReset : stopped.status.err = true ∧
    (0x000000FE : Word) ≠ 0x000000FF ∧ (0x000001FF : Word) ≠ 0x000000FF ∧
    (answering (.write 0x00 0x000000FE) stopped).map (·.status) = some stopped.status ∧
    (answering (.write 0x00 0x000000FF) stopped).map (·.status.err) = some false ∧
    regAt 0x04 = some .status ∧ Reg.status ≠ .cmd ∧ regAt 0x54 = some (.q .pr) ∧ Reg.q .pr ≠ .cmd ∧
    (answering (.write 0x54 9) stopped).map (·.q) = some stopped.q ∧
    regAt 0x00 = some .cmd ∧ (answering (.read 0x00) stopped).map (·.answers) = some [.value 0] ∧
    (answering (.read 0x54) stopped).map (·.answers) = some [.value 7] ∧
    (answering (.feed [1]) stopped).map (·.ififo) = some [0x80, 0x02, 0x20, 0x77, 0xAA, 1] ∧
    0 ≤ stopped.ofifo.length ∧ 2 ≤ stopped.ofifo.length ∧
    (answering (.drain 2) stopped).map (fun s => (s.ofifo, s.answers)) =
      some ([], [.bytes [0xB1, 0xB2]]) := by decide

theorem test_witness_InstructionsIgnoredInAbortState : stopped.status.err = true ∧ Instr.encb ≠ .rst ∧
    after .encb stopped = some stopped := by decide +kernel

/-- Every clause of the read map, pixels at both ends, and the three bus errors at their bounds. -/
theorem test_witness_BusReadAnswersRegister :
    [0x03, 0x58, 0x100].map (fun a => (answering (.read a) sample).map (·.answers)) =
      [some [.busErr], some [.busErr], some [.busErr]] ∧
    [0x00, 0x04, 0x08, 0x0C].map (fun a => (answering (.read a) sample).map (·.answers)) =
      [some [.value 0], some [.value 0], some [.value 255], some [.value 0x800DE777]] ∧
    0x10 = 0x10 + 12 * Pos.tl.toK.toNat ∧ 0x3C = 0x18 + 12 * Pos.br.toK.toNat ∧
    [0x10, 0x14, 0x18, 0x34, 0x38, 0x3C].map (fun a => (answering (.read a) sample).map (·.answers)) =
      [some [.value 1], some [.value 2], some [.value 3], some [.value 10], some [.value 11],
        some [.value 255]] ∧
    [0x40, 0x44, 0x48, 0x4C, 0x50, 0x54].map (fun a => (answering (.read a) sample).map (·.answers)) =
      [some [.value 256], some [.value 3], some [.value 15], some [.value 7], some [.value 7],
        some [.value 7]] := by decide

/-- Every clause of the write map at its bounds; the abort clause at its first and last address. -/
theorem test_witness_BusWriteStoresRegister :
    [0x03, 0x58, 0x100].map (fun a => (answering (.write a 1) sample).map (·.answers)) =
      [some [.busErr], some [.busErr], some [.busErr]] ∧
    (answering (.write 0x04 0xFFFFFFFF) sample).map (·.status.word) = some 0 ∧
    stopped.status.err = true ∧ 0x54 % 4 = 0 ∧
    (answering (.write 0x08 1) stopped).map (·.den) = some 255 ∧
    (answering (.write 0x54 1) stopped).map (·.q.pr) = some 7 ∧
    sample.status.err = false ∧
    (answering (.write 0x08 1) sample).map (·.den) = some 1 ∧
    (answering (.write 0x0C 1) sample).map (·.w) = some 1 ∧
    [0x10, 0x14, 0x18].map (fun a => (answering (.write a 0xABCD) sample).map (·.px.tl)) =
      [some ⟨0xABCD, 2, 3⟩, some ⟨1, 0xABCD, 3⟩, some ⟨1, 2, 0xABCD⟩] ∧
    [0x34, 0x38, 0x3C].map (fun a => (answering (.write a 0xABCD) sample).map (·.px.br)) =
      [some ⟨0xABCD, 11, 255⟩, some ⟨10, 0xABCD, 255⟩, some ⟨10, 11, 0xABCD⟩] ∧
    [0x40, 0x44, 0x48, 0x4C, 0x50, 0x54].map (fun a => (answering (.write a 0xFFFFFFFE) sample).map (·.q)) =
      [some ⟨-2, 3, 15, 7, 7, 7⟩, some ⟨256, -2, 15, 7, 7, 7⟩, some ⟨256, 3, -2, 7, 7, 7⟩,
        some ⟨256, 3, 15, -2, 7, 7⟩, some ⟨256, 3, 15, 7, -2, 7⟩, some ⟨256, 3, 15, 7, 7, -2⟩] := by
  decide

theorem test_witness_RegisterMapIsOneToOne : regAt 0x00 = some .cmd ∧ regAt 0x54 = some (.q .pr) ∧
    0x54 % 4 = 0 ∧ 0x54 < 0x58 := by decide

theorem test_witness_RegisterWriteReadsBack : Reg.px .br .b ≠ .cmd ∧ Reg.px .br .b ≠ .status ∧
    (sample.writeReg 0xFFFF1234 (.px .br .b)).readReg (.px .br .b) = 0x1234 ∧
    Reg.px .br .g ≠ .px .br .b ∧
    (sample.writeReg 0xFFFF1234 (.px .br .b)).readReg (.px .br .g) = 11 := by decide

/-- Drain of nothing, of all, and of one more. -/
theorem test_witness_StreamPortsFeedAndDrain :
    (answering (.feed []) sample).map (·.ififo) = some sample.ififo ∧
    0 ≤ sample.ofifo.length ∧ (answering (.drain 0) sample).map (·.answers) = some [.bytes []] ∧
    2 ≤ sample.ofifo.length ∧ (answering (.drain 2) sample).map (·.ofifo) = some [] ∧
    sample.ofifo.length < 3 ∧
    refusal? (step (sample.setScript [.drain 3])) = some .drainBeyondOutput := by decide

theorem test_witness_ResetZeroesEveryRegister :
    (stopped.setScript [.hreset]).script = [.hreset] ∧
    (answering .hreset stopped).map (·.status.word) = some 0 := by decide

theorem test_witness_ResetKeepsHostRecordAndTable :
    (stopped.setScript [.hreset, .drain 0]).script = .hreset :: [.drain 0] ∧
    (next? (step (stopped.setScript [.hreset, .drain 0]))).map (fun s => (s.script, s.table)) =
      some ([.drain 0], ChromaTable.specDefault) := by decide +kernel

theorem test_witness_IdleCoreHoldsItsState : sample.script = [] ∧ next? (step sample) = some sample := by
  decide +kernel

/-- Both sides of the check on DEN: 0, and 1, the smallest that passes. -/
theorem test_witness_CscfConvertsOnePixel : sample.status.err = false ∧
    { sample with den := 0 }.den = 0 ∧ { sample with den := 1 }.den ≠ 0 ∧
    (after (.cscf .tr) { sample with den := 1 }).map (·.cs.tr.y) =
      some (299/1000 * 4 + 587/1000 * 5 + 114/1000 * 6) := by decide +kernel

/-- DEN = 0 and 1; channels that round to 0, to DEN, below 0 and above DEN. -/
theorem test_witness_CsciReconstructsOnePixel : sample.status.err = false ∧
    { sample with den := 0 }.den = 0 ∧ { sample with den := 1 }.den ≠ 0 ∧
    (after (.csci .tl) { base with den := 1, cs := Quad.all ⟨-49/100, 0, 0⟩ }).map
      (fun s => (s.px.tl, s.status.sat)) = some (⟨0, 0, 0⟩, false) ∧
    (after (.csci .tl) { base with den := 1, cs := Quad.all ⟨149/100, 0, 0⟩ }).map
      (fun s => (s.px.tl, s.status.sat)) = some (⟨1, 1, 1⟩, false) ∧
    (after (.csci .tl) { base with den := 1, cs := Quad.all ⟨-1/2, 0, 0⟩ }).map
      (fun s => (s.px.tl, s.status.sat)) = some (⟨0, 0, 0⟩, true) ∧
    (after (.csci .tl) { base with den := 1, cs := Quad.all ⟨3/2, 0, 0⟩ }).map
      (fun s => (s.px.tl, s.status.sat)) = some (⟨1, 1, 1⟩, true) := by decide +kernel

theorem test_witness_BtfTransformsBlock : sample.status.err = false ∧
    (after .btf sample).map (·.cf.b) = some (57/1000) := by decide +kernel

theorem test_witness_BtiReconstructsBlock : sample.status.err = false ∧
    (after .bti sample).map (·.cs.br.y) = some 1 := by decide +kernel

/-- The last values on either side of the 32-bit check. -/
theorem test_witness_QntQuantisesCoefficients : sample.status.err = false ∧
    { sample with cf := ⟨2147483647/511, 3/10, -3/10, 0, 0, 0⟩ }.CoeffsBounded ∧
    (after .qnt { sample with cf := ⟨2147483647/511, 3/10, -3/10, 0, 0, 0⟩ }).map (·.q) =
      some ⟨2147483647, 15, -15, 0, 7, 7⟩ ∧
    (after .qnt { sample with cf := ⟨2147483648/511, 3/10, -3/10, 0, 0, 0⟩ }).map (·.status.word) =
      some 0x00050511 ∧
    (after .qnt { sample with cf := ⟨-2147483648/511, 0, 0, 0, 0, 0⟩ }).map (·.q.a) = some 0x80000000 ∧
    (after .qnt { sample with cf := ⟨-2147483649/511, 0, 0, 0, 0, 0⟩ }).map (·.status.word) =
      some 0x00050511 := by decide +kernel

/-- Both index checks on either side of 0 and of 15. -/
theorem test_witness_DqnDequantisesFields : sample.status.err = false ∧
    (after .dqn { sample with q := ⟨0, 0, 0, 0, -1, 0⟩ }).map (·.status.word) = some 0x04060651 ∧
    (after .dqn { sample with q := ⟨0, 0, 0, 0, 16, 0⟩ }).map (·.status.word) = some 0x04060651 ∧
    (after .dqn { sample with q := ⟨0, 0, 0, 0, 15, -1⟩ }).map (·.status.word) = some 0x05060651 ∧
    (after .dqn { sample with q := ⟨0, 0, 0, 0, 0, 16⟩ }).map (·.status.word) = some 0x05060651 ∧
    (15 : Word).toInt = (15 : Fin 16).val ∧ (0 : Word).toInt = (0 : Fin 16).val ∧
    (after .dqn { sample with q := ⟨0, 0, 0, 0, 15, 0⟩ }).map (·.cf) =
      some ⟨0, 0, 0, 0, 35/100, -35/100⟩ := by decide +kernel

/-- Each of the six checks just outside its bound, and all six values at a bound. -/
theorem test_witness_PackBuildsWordOrFaults : sample.status.err = false ∧
    [(⟨512, 0, 0, 0, 0, 0⟩ : Quant), ⟨-1, 0, 0, 0, 0, 0⟩, ⟨511, 16, 0, 0, 0, 0⟩, ⟨0, -17, 0, 0, 0, 0⟩,
      ⟨0, 15, 16, 0, 0, 0⟩, ⟨0, -16, 15, -17, 0, 0⟩, ⟨0, 0, 0, 15, 16, 0⟩, ⟨0, 0, 0, 0, 15, -1⟩].map
      (fun q => (after .pack { sample with q := q }).map (·.status.einfo)) =
      [some 0, some 0, some 1, some 1, some 2, some 3, some 4, some 5] ∧
    (after .pack { sample with q := ⟨511, 15, -16, 15, 15, 0⟩ }).map (·.w) = some 0xFFBE0FF0 := by
  decide

theorem test_witness_UnpkExtractsFields : sample.status.err = false ∧
    (after .unpk { sample with w := 0xFFBE0FF0 }).map (·.q) = some ⟨511, 15, -16, 15, 15, 0⟩ := by
  decide

theorem test_witness_SerAppendsWordBigEndian : sample.status.err = false ∧
    (after .ser { sample with w := 0x01020304 }).map (·.ofifo) = some [0xB1, 0xB2, 1, 2, 3, 4] := by
  decide

/-- Three bytes and four. -/
theorem test_witness_DesTakesWordBigEndian : sample.status.err = false ∧
    { sample with ififo := [1, 2, 3] }.ififo.length < 4 ∧
    (after .des { sample with ififo := [1, 2, 3] }).map (·.status.word) = some 0x000A0A41 ∧
    (after .des { sample with ififo := [1, 2, 3, 4] }).map (fun s => (s.w, s.ififo)) =
      some (0x01020304, []) := by decide

/-- DEN = 0; then Q.a = 511, the last that fits, and 512, the first that does not. -/
theorem test_witness_EncbEncodesBlockOrFaults : sample.status.err = false ∧
    (after .encb { sample with den := 0 }).map (·.status.word) = some 0x00011021 ∧
    { sample with den := 511 }.den ≠ 0 ∧
    (after .encb { sample with den := 511, px := grey 511 511 511 511 }).map (fun s => (s.q.a, s.w)) =
      some (511, 0xFF800077) ∧
    (after .encb { sample with den := 511, px := grey 0 0 0 0 }).map (fun s => (s.q.a, s.w)) =
      some (0, 0x00000077) ∧
    (after .encb { sample with den := 511, px := grey 512 512 512 512 }).map
      (fun s => (s.q.a, s.w, s.status.word)) = some (512, 0x800DE777, 0x00071011) := by decide +kernel

/-- Three bytes; four bytes with DEN = 0 and with DEN not 0. -/
theorem test_witness_DecbDecodesBlockOrFaults : sample.status.err = false ∧
    (after .decb { sample with ififo := [1, 2, 3] }).map (·.status.word) = some 0x000A1141 ∧
    (after .decb { sample with den := 0, ififo := [0, 0, 0, 0x77] }).map (·.status.word) =
      some 0x00021121 ∧
    (after .decb { base with ififo := [0, 0, 0, 0x77] }).map (fun s => (s.px, s.ififo)) =
      some (Quad.all ⟨0, 3, 0⟩, []) := by decide +kernel

/-- An instruction of each row that each clause of the frame leaves alone completes. -/
theorem test_witness_InstructionsWriteOnlyTheirRow :
    (after .nop sample).isSome ∧ (after (.cscf .bl) sample).map (·.cs.tl) = some sample.cs.tl ∧
    (after (.csci .bl) sample).map (·.px.tl) = some sample.px.tl ∧ Pos.tl ≠ .bl ∧
    (after .encb sample).map (fun s => (s.px, s.ififo)) = some (sample.px, sample.ififo) ∧
    (after .decb sample).map (·.ofifo) = some sample.ofifo ∧
    (after .des sample).map (·.q) = some sample.q := by decide +kernel

/-- A fault of an elementary operation and one of a composite. -/
theorem test_witness_FaultsArePrecise : sample.status.err = false ∧
    (after .pack { sample with q := ⟨512, 0, 0, 0, 0, 0⟩ }).map (·.status.err) = some true ∧
    (after .encb { sample with den := 0 }).map (fun s => (s.status.err, s.status.eop)) =
      some (true, 0x10) := by decide

/-- A step in the abort state that is a reset, and one that is not. -/
theorem test_witness_FirstFaultStaysUntilReset : stopped.status.err = true ∧
    (answering (.write 0x00 0x000000FF) stopped).map (·.status.err) = some false ∧
    (answering (.write 0x00 0x00000010) stopped).map (·.status) = some stopped.status := by decide

theorem test_witness_SaturationFlagIsSticky :
    { sample with status := { sample.status with sat := true } }.status.sat = true ∧
    (answering (.write 0x00 0x00000302) { sample with status := { sample.status with sat := true } }).map
      (·.status.sat) = some true ∧
    (answering .hreset { sample with status := { sample.status with sat := true } }).map (·.status.sat) =
      some false := by decide

/-- CF at both bounds, before a step that writes it. -/
theorem test_witness_StepKeepsDetailBounds : { sample with cf := ⟨0, 3/10, -3/10, 0, 0, 0⟩ }.CoeffsBounded ∧
    (answering (.write 0x00 0x00000003) { sample with cf := ⟨0, 3/10, -3/10, 0, 0, 0⟩ }).isSome := by
  decide +kernel

theorem test_witness_StepKeepsFaultRecordSound : sample.FaultRecordSound ∧ stopped.FaultRecordSound ∧
    (answering (.write 0x00 0x00000006) { sample with q := ⟨0, 0, 0, 0, 16, 0⟩ }).map (·.status.cause) =
      some 5 := by decide

theorem test_witness_StepKeepsChromaTable :
    (answering (.write 0x00 0x000000FF) sample).map (·.table) = some ChromaTable.specDefault := by
  decide +kernel

/-- Ties of both signs, with both neighbours. -/
theorem test_witness_RoundingIsNearestTiesAway : (0 : QNum) ≤ 5/2 ∧ (-5/2 : QNum) < 0 ∧
    rnd (5/2) = 3 ∧ rnd (-5/2) = -3 ∧ absNum (5/2 - 3) = absNum (5/2 - (2 : Int)) := by decide +kernel

/-- On, below and above both bounds. -/
theorem test_witness_ClampKeepsWithinBounds : (0 : QNum) ≤ 1 ∧ (-1/1000 : QNum) < 0 ∧ (1 : QNum) < 1001/1000 ∧
    clampNum 0 0 1 = 0 ∧ clampNum 1 0 1 = 1 ∧ clampNum (-1/1000) 0 1 = 0 ∧ clampNum (1001/1000) 0 1 = 1 ∧
    clampInt (-1) 0 255 = 0 ∧ clampInt 0 0 255 = 0 ∧ clampInt 255 0 255 = 255 ∧ clampInt 256 0 255 = 255 := by
  decide +kernel

/-- A tie, where a lower index is strictly farther. -/
theorem test_witness_ChromaIndexIsNearestLowest : (6 : Fin 16) < cqIndex ChromaTable.specDefault 0 ∧
    cqIndex ChromaTable.specDefault 0 = 7 := by decide +kernel

/-- Both ends, and the two sides of a threshold. -/
theorem test_witness_ChromaIndexThresholds : (-35/100 : QNum) ≤ ChromaTable.specDefault.values[(0 : Fin 16)] ∧
    ChromaTable.specDefault.values[(15 : Fin 16)] ≤ (35/100 : QNum) ∧
    (14 : Fin 16).val + 1 = (15 : Fin 16).val ∧ cqIndex ChromaTable.specDefault (275/1000) = 14 ∧
    cqIndex ChromaTable.specDefault (2751/10000) = 15 ∧ (275/1000 : QNum) ≤ 2751/10000 := by decide +kernel

/-- The narrowest field at the top of the word, the widest, and both signed bounds. -/
theorem test_witness_InsertThenExtract : 1 + 31 ≤ 32 ∧ fitsu 1 1 = true ∧ getu (newu 0 1 31 1) 1 31 = 1 ∧
    fitsu 32 4294967295 = true ∧ getu (newu 5 32 0 4294967295) 32 0 = 4294967295 ∧
    fitss 5 (-16) = true ∧ gets (news 0xFFFFFFFF 5 18 (-16)) 5 18 = -16 ∧
    fitss 1 0 = true ∧ fitss 1 (-1) = true ∧ gets (news 0 1 31 (-1)) 1 31 = -1 := by decide

/-- Grey at DEN, and channels at 0 and at DEN. -/
theorem test_witness_CscfSampleRanges :
    let s := { base with px := grey 255 0 0 0 }
    s.status.err = false ∧ s.den ≠ 0 ∧ (s.px.get .tl).g = (s.px.get .tl).r ∧
      (s.px.get .tl).b = (s.px.get .tl).r ∧ ∀ c, ((s.px.get .tl).get c).toNat ≤ s.den.toNat :=
  ⟨rfl, by decide, rfl, rfl, fun c => by cases c <;> decide⟩

/-- A pixel with channels at 0 and at DEN, and one with a channel just above DEN. -/
theorem test_witness_PixelRoundTripsThroughColour :
    let s := { base with px := ⟨⟨255, 0, 7⟩, ⟨256, 0, 0⟩, ⟨0, 0, 0⟩, ⟨0, 0, 0⟩⟩ }
    s.status.err = false ∧ s.den ≠ 0 ∧ (∀ c, ((s.px.get .tl).get c).toNat ≤ s.den.toNat) ∧
      s.den.toNat < ((s.px.get .tr).get .r).toNat :=
  ⟨rfl, by decide, fun c => by cases c <;> decide, by decide⟩

/-- A block whose raw b is exactly 3/10 (vector B6). -/
theorem test_witness_BlockTransformInverts :
    let s := { base with cs := ⟨⟨1/5, 0, 0⟩, ⟨1/5, 0, 0⟩, ⟨4/5, 0, 0⟩, ⟨4/5, 0, 0⟩⟩ }
    s.status.err = false ∧
    (s.cs.br.y + s.cs.bl.y - s.cs.tr.y - s.cs.tl.y) / 4 = 3/10 ∧
    detailBounded ((s.cs.br.y + s.cs.bl.y - s.cs.tr.y - s.cs.tl.y) / 4) ∧
    detailBounded ((s.cs.br.y - s.cs.bl.y + s.cs.tr.y - s.cs.tl.y) / 4) ∧
    detailBounded ((s.cs.br.y - s.cs.bl.y - s.cs.tr.y + s.cs.tl.y) / 4) := by decide +kernel

/-- CF at its bounds, a = 0 and a = 1; the second gives 19/10. -/
theorem test_witness_BtiLumaStaysNearMean : sample.status.err = false ∧
    { sample with cf := ⟨0, -3/10, -3/10, -3/10, 0, 0⟩ }.CoeffsBounded ∧
    (after .bti { sample with cf := ⟨0, -3/10, -3/10, -3/10, 0, 0⟩ }).map (·.cs.br.y) = some (-9/10) ∧
    (after .bti { sample with cf := ⟨1, 3/10, 3/10, 3/10, 0, 0⟩ }).map (·.cs.br.y) = some (19/10) := by
  decide +kernel

/-- a at 0, at 1 and on the two sides of both limits of spec/43_quantize.md R171 (d). -/
theorem test_witness_QuantisedFieldsFitExceptA : sample.status.err = false ∧
    { sample with cf := ⟨5115/5110, 3/10, -3/10, 0, 0, 0⟩ }.CoeffsBounded ∧
    rnd (5115/5110 * 511) = 512 ∧ rnd (51149/51100 * 511) = 511 ∧ rnd (-5/5110 * 511) = -1 ∧
    rnd (-49/51100 * 511) = 0 ∧ rnd (0 * 511) = 0 ∧ rnd (1 * 511) = 511 ∧
    -2147483648 ≤ rnd (5115/5110 * 511) ∧ rnd (5115/5110 * 511) ≤ 2147483647 := by decide +kernel

/-- Q at the bounds of the ranges the forward path produces. -/
theorem test_witness_QuantisedBlockRoundTrips :
    let s := { base with q := ⟨511, 15, -15, 0, 15, 0⟩ }
    s.status.err = false ∧ 0 ≤ s.q.int .a ∧ s.q.int .a ≤ 511 ∧
    (∀ f, f = .b ∨ f = .c ∨ f = .d → -15 ≤ s.q.int f ∧ s.q.int f ≤ 15) ∧
    (∀ f, f = .pb ∨ f = .pr → 0 ≤ s.q.int f ∧ s.q.int f ≤ 15) :=
  ⟨rfl, by decide, by decide, by rintro f (rfl | rfl | rfl) <;> decide,
    by rintro f (rfl | rfl) <;> decide⟩

/-- Q at the bounds of the fields of the packed word. -/
theorem test_witness_PackThenUnpkKeepsFields :
    let s := { base with q := ⟨511, 15, -16, 0, 15, 0⟩ }
    s.status.err = false ∧ 0 ≤ s.q.int .a ∧ s.q.int .a ≤ 511 ∧
    (∀ f, f = .b ∨ f = .c ∨ f = .d → -16 ≤ s.q.int f ∧ s.q.int f ≤ 15) ∧
    (∀ f, f = .pb ∨ f = .pr → 0 ≤ s.q.int f ∧ s.q.int f ≤ 15) :=
  ⟨rfl, by decide, by decide, by rintro f (rfl | rfl | rfl) <;> decide,
    by rintro f (rfl | rfl) <;> decide⟩

theorem test_witness_UnpkThenPackKeepsWord : sample.status.err = false ∧
    (next? (execAll [.unpk, .pack] { sample with w := 0xDEADBEEF })).map (·.w) = some 0xDEADBEEF := by
  decide

theorem test_witness_SerialisedWordRoundTrips : sample.status.err = false ∧ base.status.err = false ∧
    (after .des { base with ififo := [0x80, 0x0D, 0xE7, 0x77] }).map (·.w) = some sample.w := by
  decide

/-- A run of ENCB without a fault, one with a fault, and one in the abort state. -/
theorem test_witness_CompositesEqualTheirSequences :
    (after .encb sample).map (·.status.err) = some false ∧
    (after .encb { sample with den := 0 }).map (·.status.eop) = some 0x10 ∧
    (next? (execAll Script.encode { sample with den := 0 })).map (·.status.eop) = some 0x01 ∧
    stopped.status.err = true := by decide +kernel

/-- Two states that differ in what the block does not depend on. -/
theorem test_witness_BlocksAreIndependent :
    let u := { base with px := sample.px, ififo := [0x80, 0x02, 0x20, 0x77] }
    sample.status.err = false ∧ u.status.err = false ∧ u.den = sample.den ∧ u.table = sample.table ∧
    u.px = sample.px ∧ u.ififo.take 4 = sample.ififo.take 4 ∧ u.w ≠ sample.w := by decide +kernel

/-- Four equal pixels with channels at DEN. -/
theorem test_witness_EncbNeverFaultsInRange :
    let s := { base with px := grey 255 255 255 255 }
    s.status.err = false ∧ s.PixelsInRange ∧ ∀ k, s.px.get k = s.px.tl :=
  ⟨rfl, ⟨by decide, fun k c => by cases k <;> cases c <;> decide⟩, fun k => by cases k <;> rfl⟩

/-- The 5 x 3 image of program P2: its last pixel and its last block. -/
theorem test_witness_BlocksTileTrimmedImage : trimmed 5 = 4 ∧ trimmed 3 = 2 ∧ 3 < trimmed 5 ∧ 1 < trimmed 3 ∧
    blockPixel 0 1 .br = (3, 1) ∧ 0 < trimmed 3 / 2 ∧ 1 < trimmed 5 / 2 ∧
    wordIndex (trimmed 5) 0 1 = 1 ∧ (blockOrder (trimmed 5) (trimmed 3))[1]? = some (0, 1) ∧ bodyWords (trimmed 5) (trimmed 3) = 2 := by decide

/-- The first transactions of program P1 and of its second half (spec/95_test_vectors.md section 10). -/
theorem test_host_script :
    (Script.compress (fun _ => (0, 0, 0)) 255 2 2).take 2 = [.write 0x08 255, .write 0x10 0] ∧
    (Script.compress (fun _ => (0, 0, 0)) 255 2 2).drop 13 = [.write 0x00 0x10, .read 0x04, .drain 4] ∧
    (Script.decompress [0, 0, 0, 0x77] 255 2 2).take 5 =
      [.write 0x08 255, .feed [0, 0, 0, 0x77], .write 0x00 0x11, .read 0x04, .read 0x10] ∧
    blockOrder 4 2 = [(0, 0), (0, 1)] := by decide

end Sys2Proof.Tests
end

/-! ### The idle core (spec/00_scope.md R7, spec/60_exceptions.md R240) -/

namespace Sys2Proof.Machine

open Sys2Proof

/-- The equation of `step` for the empty script, the case in which `transact` and hence `exec` play no part. -/
theorem step_of_script_nil {s : State} (hs : s.script = []) : step s = .next s := by
  rw [step, stepWith, hs]

/-- Settles O16: the empty script is the first branch of `stepWith`. -/
theorem idleCoreHoldsItsState : Obligations.IdleCoreHoldsItsState := fun _ hs => step_of_script_nil hs

end Sys2Proof.Machine

/-! ### Reset (spec/10_state.md R45, spec/46_composite_system.md R201, spec/70_reset_and_hazards.md R250) -/

namespace Sys2Proof.Machine

open Sys2Proof

/-- The model's reset and the reset state the statements write out are the same state. -/
theorem State.resetCore_eq_resetBeside (s : State) : s.resetCore = s.resetBeside := rfl

/-- RST resets the core in every state, the abort state included. -/
theorem exec_rst (s : State) : exec .rst s = .next s.resetCore := rfl

/-- The equation of `step` for a hardware reset. -/
theorem step_of_script_hreset {s : State} {rest : List Transaction} (hs : s.script = .hreset :: rest) :
    step s = .next (s.setScript rest).resetCore := by
  rw [step, stepWith, hs]; rfl

/-- The reset values do not depend on the state before the reset. -/
theorem State.sameCore_resetCore (s u : State) : s.resetBeside.SameCore u.resetCore :=
  ⟨rfl, rfl, rfl, rfl, rfl, rfl, rfl, rfl, rfl⟩

/-- Settles O14: both resets answer `resetCore`, whose registers and FIFOs are those of `State.reset`. -/
theorem resetZeroesEveryRegister : Obligations.ResetZeroesEveryRegister := fun s =>
  ⟨by decide,
    ⟨_, exec_rst s, s.sameCore_resetCore s⟩,
    fun rest hs => ⟨_, step_of_script_hreset hs, s.sameCore_resetCore (s.setScript rest)⟩,
    s.sameCore_resetCore State.reset⟩

/-- Settles O15: `resetCore` takes the table, the script and the answers from the state before it. -/
theorem resetKeepsHostRecordAndTable : Obligations.ResetKeepsHostRecordAndTable := by
  intro s
  refine ⟨?_, fun rest hs => ?_⟩
  · rw [exec_rst, State.resetCore_eq_resetBeside]
  · rw [step_of_script_hreset hs, State.resetCore_eq_resetBeside]; rfl

/-- Settles O35: the three coefficients are 0 at reset. -/
theorem detailBoundsHoldAtReset : Obligations.DetailBoundsHoldAtReset := by
  have zero_bounded : detailBounded 0 := by norm_num [detailBounded]
  exact ⟨zero_bounded, zero_bounded, zero_bounded⟩

/-- Settles O37: STATUS is all 0 at reset, so ERR = 0 and the fault fields are 0. -/
theorem faultRecordSoundAtReset : Obligations.FaultRecordSoundAtReset :=
  ⟨fun _ => ⟨rfl, rfl, rfl, rfl⟩, fun herr => absurd herr Bool.false_ne_true⟩

/-! ### What every step keeps -/

/-- The writes a step other than a reset is made of keep the property `P`: those of the instructions, and
those of the host's transactions. -/
structure StepWritesKeep (P : State → Prop) : Prop extends WritesKeep P where
  den : ∀ s x, P s → P (s.setDen x)
  script : ∀ s x, P s → P (s.setScript x)
  answer : ∀ s a, P s → P (s.answer a)

/-- The host's next transaction is one of the two resets (spec/46_composite_system.md R201,
spec/70_reset_and_hazards.md R250). -/
def State.ResetRequested (s : State) : Prop :=
  ∃ rest, s.script = .hreset :: rest ∨ s.script = .write 0x00 0x000000FF :: rest

/-- CMD is mapped at address 0 only. -/
theorem eq_zero_of_regAt_eq_cmd {addr : Nat} (h : regAt addr = some .cmd) : addr = 0x00 := by
  unfold regAt at h
  split at h
  case h_1 => rfl
  all_goals cases h

/-- The three fields of a command word make up the word. -/
theorem Command.toWord_ofWord (v : Word) : (Command.ofWord v).toWord = v :=
  calc v.extractLsb' 10 22 ++ v.extractLsb' 8 2 ++ v.extractLsb' 0 8
      = v.extractLsb' 8 24 ++ v.extractLsb' 0 8 := by
        rw [BitVec.extractLsb'_append_extractLsb'_eq_extractLsb' (w := 32) (by rfl)]
    _ = v := BitVec.extractLsb'_append_extractLsb' (w := 24) (len := 8)

theorem Pos.toK_ofK (k : BitVec 2) : (Pos.ofK k).toK = k := by
  revert k; decide

/-- The opcode and the K field that the decoder reads an instruction from are those the encoder writes. -/
theorem fields_of_instrOfOpcode {opc : Byte} {k : BitVec 2} {i : Instr} (h : instrOfOpcode opc k = some i) :
    opc = opcodeOf i ∧ (takesK i = true → k = (Command.ofInstr i).k) := by
  unfold instrOfOpcode at h
  split at h
  case h_15 => cases h
  all_goals
    rename_i hopc
    cases h
    exact ⟨BitVec.eq_of_toNat_eq hopc, by simp [takesK, Command.ofInstr, Pos.toK_ofK]⟩

/-- A command without the operand K is encoded with K = 0. -/
theorem ofInstr_k_of_not_takesK {i : Instr} (h : takesK i = false) : (Command.ofInstr i).k = 0 := by
  cases i with
  | cscf | csci => cases h
  | _ => rfl

/-- The fields of a legal command are those the encoder writes (spec/30_encoding.md R94). -/
theorem Command.eq_ofInstr_of_decode {c : Command} {i : Instr} (h : c.decode = .ok i) :
    c = Command.ofInstr i := by
  obtain ⟨rsv, k, opc⟩ := c
  unfold Command.decode at h
  split at h
  · cases h
  rename_i hrsv
  split at h
  · cases h
  rename_i hj
  split at h
  · cases h
  rename_i hk
  cases h
  obtain ⟨hopc, hkj⟩ := fields_of_instrOfOpcode hj
  have hkField : k = (Command.ofInstr i).k := by
    cases ht : takesK i with
    | true => exact hkj ht
    | false => rw [ofInstr_k_of_not_takesK ht]; by_contra hne; exact hk ⟨hne, ht⟩
  have hrsvZero : rsv = 0 := not_not.mp hrsv
  subst hopc hkField hrsvZero
  rfl

/-- A legal command word is the word of the instruction it decodes to. -/
theorem eq_encode_of_decode {v : Word} {i : Instr} (h : decode v = .ok i) : v = encode i := by
  rw [encode, ← Command.eq_ofInstr_of_decode h, Command.toWord_ofWord]

section stepKeeps
variable {P : State → Prop} (hP : StepWritesKeep P)
include hP

/-- A bus write to any register keeps `P`. -/
theorem writeReg_keeps (v : Word) (r : Reg) (s : State) (hs : P s) : P (s.writeReg v r) := by
  cases r with
  | cmd | status => exact hs
  | den => exact hP.den _ _ hs
  | w => exact hP.w _ _ hs
  | px k c => exact hP.px _ _ hs
  | q f => exact hP.q _ _ hs

/-- A bus read only answers, so it keeps `P`. -/
theorem busRead_keeps (addr : Nat) (s : State) (hs : P s) : P (busRead addr s) := by
  unfold busRead
  split <;> exact hP.answer _ _ hs

/-- A step from a state with `P` either keeps `P` or resets a state with `P` on the host's request. -/
theorem step_keeps_or_resets {s t : State} (hs : P s) (h : step s = .next t) :
    P t ∨ (s.ResetRequested ∧ ∃ u, P u ∧ t = u.resetCore) := by
  have answered (rest : List Transaction) (a : Answer) : P ((s.setScript rest).answer a) :=
    hP.answer _ _ (hP.script _ _ hs)
  cases step_cases h with
  | idle => exact .inl hs
  | read addr rest => exact .inl (busRead_keeps hP _ _ (hP.script _ _ hs))
  | writeUnmapped addr v rest => exact .inl (answered rest _)
  | command addr v rest i _ hscript hr hi he =>
    by_cases hrst : i = .rst
    · subst hrst
      obtain rfl := eq_zero_of_regAt_eq_cmd hr
      obtain rfl : v = encode .rst := eq_encode_of_decode hi
      cases he
      exact .inr ⟨⟨rest, .inr hscript⟩, _, answered rest _, rfl⟩
    · exact .inl (exec_keeps hP.toWritesKeep hrst (answered rest _) he)
  | illegal addr v rest => exact .inl (hP.fault _ _ _ _ (answered rest _))
  | ignored addr v rest => exact .inl (answered rest _)
  | writeReg addr v rest r => exact .inl (writeReg_keeps hP v r _ (answered rest _))
  | feed bytes rest => exact .inl (hP.ififo _ _ (hP.script _ _ hs))
  | drain n rest => exact .inl (hP.answer _ _ (hP.ofifo _ _ (hP.script _ _ hs)))
  | hreset rest hscript => exact .inr ⟨⟨rest, .inl hscript⟩, _, hP.script _ _ hs, rfl⟩

/-- A property that a reset keeps too is kept by every step. -/
theorem step_keeps (hreset : ∀ u, P u → P u.resetCore) {s t : State} (hs : P s) (h : step s = .next t) :
    P t := by
  obtain ht | ⟨_, u, hu, rfl⟩ := step_keeps_or_resets hP hs h
  · exact ht
  · exact hreset u hu

end stepKeeps

/-! ### The invariants (spec/10_state.md R31, R33, R36, R41) -/

/-- BTF and DQN write CF, each with clamped details; no other operation writes CF. -/
theorem stepWritesKeep_coeffsBounded : StepWritesKeep State.CoeffsBounded := by
  constructor
  case toWritesKeep =>
    constructor
    case cfForward | cfDequantised =>
      intros
      exact ⟨clampDetail_bounds _, clampDetail_bounds _, clampDetail_bounds _⟩
    all_goals intros; assumption
  all_goals intros; assumption

/-- Settles O36: BTF and DQN clamp what they write to CF.b, CF.c and CF.d, and a reset makes them 0. -/
theorem stepKeepsDetailBounds : Obligations.StepKeepsDetailBounds := fun _ _ hs h =>
  step_keeps stepWritesKeep_coeffsBounded (fun _ _ => detailBoundsHoldAtReset) hs h

/-- Every cause code is one of 1 to 5 (spec/60_exceptions.md R220). -/
theorem Cause.code_bounds (c : Cause) : 1 ≤ c.code.toNat ∧ c.code.toNat ≤ 5 := by
  cases c <;> decide

/-- Only the fault entry writes the fault fields, and it sets ERR with a cause code; CSCI writes SAT alone. -/
theorem stepWritesKeep_faultRecordSound : StepWritesKeep State.FaultRecordSound := by
  constructor
  case toWritesKeep =>
    constructor
    case fault =>
      intro s eop estage r _
      exact ⟨fun herr => (nomatch herr), fun _ => r.cause.code_bounds⟩
    all_goals intros; assumption
  all_goals intros; assumption

/-- Settles O38: a step records a fault with a cause of R220 or leaves the record, and a reset clears it. -/
theorem stepKeepsFaultRecordSound : Obligations.StepKeepsFaultRecordSound := fun _ _ hs h =>
  step_keeps stepWritesKeep_faultRecordSound (fun _ _ => faultRecordSoundAtReset) hs h

/-- No write of the core is to the table. -/
theorem stepWritesKeep_table (table : ChromaTable) : StepWritesKeep (·.table = table) := by
  constructor
  case toWritesKeep => constructor <;> intros <;> assumption
  all_goals intros; assumption

/-- Settles O39: no write is to the table, and a reset takes the table over. -/
theorem stepKeepsChromaTable : Obligations.StepKeepsChromaTable := fun s _ h =>
  step_keeps (stepWritesKeep_table s.table) (fun _ hu => hu) rfl h

/-- SAT is only or-ed into, and a fault keeps it. -/
theorem stepWritesKeep_sat : StepWritesKeep (·.status.sat = true) := by
  constructor
  case toWritesKeep =>
    constructor
    case sat => intro s c hs; simp [Status.noteClamp, hs]
    all_goals intros; assumption
  all_goals intros; assumption

/-- Settles O34: every write other than a reset keeps SAT once it is set. -/
theorem saturationFlagIsSticky : Obligations.SaturationFlagIsSticky := fun _ _ hs h =>
  (step_keeps_or_resets stepWritesKeep_sat hs h).imp_right And.left

/-! ### The STATUS word (spec/10_state.md R33) -/

/-- Settles O9: each field is one part of the concatenation that `Status.word` is, and a bit range inside a
part is read from that part alone. -/
theorem statusWordHasItsFields : Obligations.StatusWordHasItsFields := by
  intro st
  simp (disch := omega) only [Status.word, bit, BitVec.extractLsb'_append_eq_of_le,
    BitVec.extractLsb'_append_eq_of_add_le]
  simp [BitVec.extractLsb'_eq_self]

/-! ### What an instruction leaves alone (spec/10_state.md R24) -/

/-- The change from `s` to `t` stays within what the row of the instruction `i` in the table of
spec/10_state.md R24 writes, RST apart. -/
structure WritesWithinRow (i : Instr) (s t : State) : Prop where
  table : t.table = s.table
  script : t.script = s.script
  answers : t.answers = s.answers
  den : t.den = s.den
  px : (∀ k, i ≠ .csci k) → i ≠ .decb → t.px = s.px
  sat : (∀ k, i ≠ .csci k) → i ≠ .decb → t.status.sat = s.status.sat
  cs : (∀ k, i ≠ .cscf k) → i ≠ .bti → i ≠ .encb → i ≠ .decb → t.cs = s.cs
  cf : i ≠ .btf → i ≠ .dqn → i ≠ .encb → i ≠ .decb → t.cf = s.cf
  q : i ≠ .qnt → i ≠ .unpk → i ≠ .encb → i ≠ .decb → t.q = s.q
  w : i ≠ .pack → i ≠ .des → i ≠ .encb → i ≠ .decb → t.w = s.w
  ififo : i ≠ .des → i ≠ .decb → t.ififo = s.ififo
  ofifo : i ≠ .ser → i ≠ .encb → t.ofifo = s.ofifo
  csOther : ∀ k j, i = .cscf k → j ≠ k → t.cs.get j = s.cs.get j
  pxOther : ∀ k j, i = .csci k → j ≠ k → t.px.get j = s.px.get j

namespace WritesWithinRow
variable {i : Instr} {s t u : State}

theorem refl (i : Instr) (s : State) : WritesWithinRow i s s := by
  constructor <;> intros <;> rfl

theorem trans (hst : WritesWithinRow i s t) (htu : WritesWithinRow i t u) : WritesWithinRow i s u where
  table := htu.table.trans hst.table
  script := htu.script.trans hst.script
  answers := htu.answers.trans hst.answers
  den := htu.den.trans hst.den
  px h1 h2 := (htu.px h1 h2).trans (hst.px h1 h2)
  sat h1 h2 := (htu.sat h1 h2).trans (hst.sat h1 h2)
  cs h1 h2 h3 h4 := (htu.cs h1 h2 h3 h4).trans (hst.cs h1 h2 h3 h4)
  cf h1 h2 h3 h4 := (htu.cf h1 h2 h3 h4).trans (hst.cf h1 h2 h3 h4)
  q h1 h2 h3 h4 := (htu.q h1 h2 h3 h4).trans (hst.q h1 h2 h3 h4)
  w h1 h2 h3 h4 := (htu.w h1 h2 h3 h4).trans (hst.w h1 h2 h3 h4)
  ififo h1 h2 := (htu.ififo h1 h2).trans (hst.ififo h1 h2)
  ofifo h1 h2 := (htu.ofifo h1 h2).trans (hst.ofifo h1 h2)
  csOther k j hi hj := (htu.csOther k j hi hj).trans (hst.csOther k j hi hj)
  pxOther k j hi hj := (htu.pxOther k j hi hj).trans (hst.pxOther k j hi hj)

/-- The fault entry writes the fault record only, which every row may write. -/
theorem takeFault (i : Instr) (s : State) (eop estage : Byte) (r : Raise) :
    WritesWithinRow i s (s.takeFault eop estage r) := by
  constructor <;> intros <;> rfl

end WritesWithinRow

/-- A command whose every stage stays within the row of `i` stays within it. -/
theorem runCommand_withinRow {i : Instr} {eop : Byte} {stages : List (Byte × (State → Except Raise State))}
    {s t : State} (hstage : ∀ e ∈ stages, ∀ u u', e.2 u = .ok u' → WritesWithinRow i u u')
    (h : runCommand eop stages s = .next t) : WritesWithinRow i s t :=
  runCommand_keeps (P := WritesWithinRow i s) (fun e he u u' hu hop => hu.trans (hstage e he u u' hop))
    (fun u eop estage r hu => hu.trans (.takeFault i u eop estage r)) (.refl i s) h

/-- A command of one stage that stays within the row of `i` stays within it. -/
theorem runCommand_one_withinRow {i : Instr} {eop estage : Byte} {op : State → Except Raise State}
    {s t : State} (hop : ∀ u u', op u = .ok u' → WritesWithinRow i u u')
    (h : runCommand eop [(estage, op)] s = .next t) : WritesWithinRow i s t :=
  runCommand_withinRow (by simpa using hop) h

/-! Each stage stays within the rows of the two instructions that run it: its own and a composite one. -/

section stagesWithinRow
variable {i : Instr} {k : Pos}

theorem stageCscf_withinRow (hi : i = .cscf k ∨ i = .encb) (s t : State)
    (h : stageCscf k s = .ok t) : WritesWithinRow i s t := by
  obtain ⟨_, rfl⟩ := stageCscf_ok h
  rcases hi with rfl | rfl
  · constructor
    case csOther =>
      rintro _ j ⟨rfl⟩ hj
      exact Quad.get_set_other _ _ _ _ hj
    all_goals simp
  · constructor <;> simp

theorem stageCsci_withinRow (hi : i = .csci k ∨ i = .decb) (s t : State)
    (h : stageCsci k s = .ok t) : WritesWithinRow i s t := by
  obtain ⟨_, rfl⟩ := stageCsci_ok h
  rcases hi with rfl | rfl
  · constructor
    case pxOther =>
      rintro _ j ⟨rfl⟩ hj
      exact Quad.get_set_other _ _ _ _ hj
    all_goals simp
  · constructor <;> simp

theorem stageBtf_withinRow (hi : i = .btf ∨ i = .encb) (s t : State)
    (h : stageBtf s = .ok t) : WritesWithinRow i s t := by
  rw [stageBtf_ok h]
  rcases hi with rfl | rfl <;> constructor <;> simp

theorem stageBti_withinRow (hi : i = .bti ∨ i = .decb) (s t : State)
    (h : stageBti s = .ok t) : WritesWithinRow i s t := by
  rw [stageBti_ok h]
  rcases hi with rfl | rfl <;> constructor <;> simp

theorem stageQnt_withinRow (hi : i = .qnt ∨ i = .encb) (s t : State)
    (h : stageQnt s = .ok t) : WritesWithinRow i s t := by
  rw [stageQnt_ok h]
  rcases hi with rfl | rfl <;> constructor <;> simp

theorem stageDqn_withinRow (hi : i = .dqn ∨ i = .decb) (s t : State)
    (h : stageDqn s = .ok t) : WritesWithinRow i s t := by
  obtain ⟨_, _, rfl⟩ := stageDqn_ok h
  rcases hi with rfl | rfl <;> constructor <;> simp

theorem stagePack_withinRow (hi : i = .pack ∨ i = .encb) (s t : State)
    (h : stagePack s = .ok t) : WritesWithinRow i s t := by
  obtain ⟨_, rfl⟩ := stagePack_ok h
  rcases hi with rfl | rfl <;> constructor <;> simp

theorem stageUnpk_withinRow (hi : i = .unpk ∨ i = .decb) (s t : State)
    (h : stageUnpk s = .ok t) : WritesWithinRow i s t := by
  rw [stageUnpk_ok h]
  rcases hi with rfl | rfl <;> constructor <;> simp

theorem stageSer_withinRow (hi : i = .ser ∨ i = .encb) (s t : State)
    (h : stageSer s = .ok t) : WritesWithinRow i s t := by
  rw [stageSer_ok h]
  rcases hi with rfl | rfl <;> constructor <;> simp

theorem stageDes_withinRow (hi : i = .des ∨ i = .decb) (s t : State)
    (h : stageDes s = .ok t) : WritesWithinRow i s t := by
  obtain ⟨_, _, _, _, _, _, rfl⟩ := stageDes_ok h
  rcases hi with rfl | rfl <;> constructor <;> simp

end stagesWithinRow

/-- Every instruction but RST stays within its row. -/
theorem exec_withinRow {i : Instr} (hi : i ≠ .rst) {s t : State} (h : exec i s = .next t) :
    WritesWithinRow i s t := by
  cases i with
  | rst => exact absurd rfl hi
  | nop => exact runCommand_withinRow (by simp) h
  | cscf k => exact runCommand_one_withinRow (stageCscf_withinRow (.inl rfl)) h
  | csci k => exact runCommand_one_withinRow (stageCsci_withinRow (.inl rfl)) h
  | btf => exact runCommand_one_withinRow (stageBtf_withinRow (.inl rfl)) h
  | bti => exact runCommand_one_withinRow (stageBti_withinRow (.inl rfl)) h
  | qnt => exact runCommand_one_withinRow (stageQnt_withinRow (.inl rfl)) h
  | dqn => exact runCommand_one_withinRow (stageDqn_withinRow (.inl rfl)) h
  | pack => exact runCommand_one_withinRow (stagePack_withinRow (.inl rfl)) h
  | unpk => exact runCommand_one_withinRow (stageUnpk_withinRow (.inl rfl)) h
  | ser => exact runCommand_one_withinRow (stageSer_withinRow (.inl rfl)) h
  | des => exact runCommand_one_withinRow (stageDes_withinRow (.inl rfl)) h
  | encb =>
    refine runCommand_withinRow (stages := encbStages) ?_ h
    simp only [encbStages, List.forall_mem_cons]
    exact ⟨stageCscf_withinRow (.inr rfl), stageCscf_withinRow (.inr rfl), stageCscf_withinRow (.inr rfl),
      stageCscf_withinRow (.inr rfl), stageBtf_withinRow (.inr rfl), stageQnt_withinRow (.inr rfl),
      stagePack_withinRow (.inr rfl), stageSer_withinRow (.inr rfl), by simp⟩
  | decb =>
    refine runCommand_withinRow (stages := decbStages) ?_ h
    simp only [decbStages, List.forall_mem_cons]
    exact ⟨stageDes_withinRow (.inr rfl), stageUnpk_withinRow (.inr rfl), stageDqn_withinRow (.inr rfl),
      stageBti_withinRow (.inr rfl), stageCsci_withinRow (.inr rfl), stageCsci_withinRow (.inr rfl),
      stageCsci_withinRow (.inr rfl), stageCsci_withinRow (.inr rfl), by simp⟩

/-- Settles O31: RST is the reset of the core, and every other instruction stays within its row. -/
theorem instructionsWriteOnlyTheirRow : Obligations.InstructionsWriteOnlyTheirRow := by
  intro i s t h
  by_cases hi : i = .rst
  · subst hi
    cases h
    simp
  · have row := exec_withinRow hi h
    exact ⟨row.table, row.script, row.answers, fun _ => row.den,
      fun h1 h2 _ => ⟨row.px h1 h2, row.sat h1 h2⟩, fun h1 h2 h3 h4 _ => row.cs h1 h2 h3 h4,
      fun h1 h2 h3 h4 _ => row.cf h1 h2 h3 h4, fun h1 h2 h3 h4 _ => row.q h1 h2 h3 h4,
      fun h1 h2 h3 h4 _ => row.w h1 h2 h3 h4, fun h1 h2 _ => row.ififo h1 h2,
      fun h1 h2 _ => row.ofifo h1 h2, row.csOther, row.pxOther⟩

end Sys2Proof.Machine

/-! ### The bus (spec/20_memory.md R60 to R67) -/

namespace Sys2Proof.Machine

open Sys2Proof

@[simp] theorem regAt_addr (r : Reg) : regAt r.addr = some r := by
  cases r with
  | cmd | status | den | w => rfl
  | px k c => cases k <;> cases c <;> rfl
  | q f => cases f <;> rfl

theorem addr_eq_of_regAt {addr : Nat} {r : Reg} (h : regAt addr = some r) : addr = r.addr := by
  unfold regAt at h
  split at h
  case h_23 => cases h
  all_goals cases h; rfl

theorem Reg.addr_mod_four (r : Reg) : r.addr % 4 = 0 := by
  cases r with
  | cmd | status | den | w => rfl
  | px k c => cases k <;> cases c <;> rfl
  | q f => cases f <;> rfl

theorem Reg.addr_lt (r : Reg) : r.addr < 0x58 := by
  cases r with
  | cmd | status | den | w => decide
  | px k c => cases k <;> cases c <;> decide
  | q f => cases f <;> decide

/-- The 22 aligned addresses below 0x58 are all mapped. -/
theorem exists_addr_eq {addr : Nat} (hmod : addr % 4 = 0) (hlt : addr < 0x58) :
    ∃ r : Reg, addr = r.addr := by
  have mapped : ∀ n < 22, (regAt (4 * n)).isSome := by decide
  obtain ⟨r, hr⟩ := Option.isSome_iff_exists.mp (mapped (addr / 4) (by omega))
  exact ⟨r, by rw [← addr_eq_of_regAt hr]; omega⟩

/-- Settles O11: each register is found at its own address, and the addresses are the 22 aligned ones below
0x58. -/
theorem registerMapIsOneToOne : Obligations.RegisterMapIsOneToOne := by
  refine ⟨regAt_addr, fun addr r h => ?_, fun addr hmod hlt => ?_⟩
  · obtain rfl := addr_eq_of_regAt h
    exact ⟨rfl, r.addr_mod_four, r.addr_lt⟩
  · obtain ⟨r, rfl⟩ := exists_addr_eq hmod hlt
    exact ⟨r, regAt_addr r⟩

/-- The three kinds of address without a register that spec/20_memory.md R67 lists. -/
theorem regAt_eq_none {addr : Nat} (h : addr % 4 ≠ 0 ∨ 0xFF < addr ∨ 0x58 ≤ addr) : regAt addr = none := by
  by_contra hne
  obtain ⟨r, hr⟩ := Option.ne_none_iff_exists'.mp hne
  obtain rfl := addr_eq_of_regAt hr
  have := r.addr_mod_four
  have := r.addr_lt
  omega

section stepEquations
variable {s : State} {rest : List Transaction}

/-- The equation of `step` for a script that is not empty. -/
theorem step_of_script_cons {t : Transaction} (hs : s.script = t :: rest) :
    step s = transact exec t (s.setScript rest) := by
  rw [step, stepWith, hs]

theorem step_read_unmapped {addr : Nat} (hs : s.script = .read addr :: rest) (hr : regAt addr = none) :
    step s = .next (s.answered rest .busErr) := by
  rw [step_of_script_cons hs, transact, busRead, hr]; rfl

theorem step_read_mapped {addr : Nat} {r : Reg} (hs : s.script = .read addr :: rest)
    (hr : regAt addr = some r) : step s = .next (s.answered rest (.value (s.readReg r))) := by
  rw [step_of_script_cons hs, transact, busRead, hr]; cases r <;> rfl

theorem step_write_unmapped {addr : Nat} {v : Word} (hs : s.script = .write addr v :: rest)
    (hr : regAt addr = none) : step s = .next (s.answered rest .busErr) := by
  rw [step_of_script_cons hs, transact, busWrite, hr]; rfl

theorem step_write_cmd {v : Word} (hs : s.script = .write 0x00 v :: rest) :
    step s = dispatchCommand exec v (s.answered rest .okay) := by
  rw [step_of_script_cons hs]; rfl

/-- The equation of `step` for a write to a register other than CMD: ignored in the abort state. -/
theorem step_write_mapped {addr : Nat} {v : Word} {r : Reg} (hs : s.script = .write addr v :: rest)
    (hr : regAt addr = some r) (hc : r ≠ .cmd) :
    step s = .next
      (if s.status.err then s.answered rest .okay else (s.answered rest .okay).writeReg v r) := by
  rw [step_of_script_cons hs, transact, busWrite, hr]
  cases r with
  | cmd => exact absurd rfl hc
  | _ => exact (apply_ite Host.Outcome.next (s.status.err = true) _ _).symm

theorem step_feed {bytes : List Byte} (hs : s.script = .feed bytes :: rest) :
    step s = .next (feed bytes (s.setScript rest)) := by
  rw [step_of_script_cons hs, transact]

theorem step_drain {n : Nat} (hs : s.script = .drain n :: rest) :
    step s = if n ≤ s.ofifo.length then
        .next { (s.answered rest (.bytes (s.ofifo.take n))) with ofifo := s.ofifo.drop n }
      else .refused .drainBeyondOutput := by
  rw [step_of_script_cons hs]; rfl

end stepEquations

/-- Settles O4: CMD is at address 0, and dispatch of a word that decodes runs `exec`. -/
theorem stepRunsDecodedInstruction : Obligations.StepRunsDecodedInstruction := by
  intro s v rest i hs hi
  rw [step_write_cmd hs, dispatchCommand, hi]

/-- Settles O13: one equation of `step` for each stream, with the two outcomes of a Drain. -/
theorem streamPortsFeedAndDrain : Obligations.StreamPortsFeedAndDrain := by
  intro s rest
  refine ⟨fun bytes hs => step_feed hs, fun n hs hn => ?_, fun n hs hn => ?_⟩
  · rw [step_drain hs, if_pos hn]
  · rw [step_drain hs, if_neg (by omega)]

/-- Settles O8: a read of a mapped address answers `readReg` of its register, whose value each clause writes
out. -/
theorem busReadAnswersRegister : Obligations.BusReadAnswersRegister := by
  intro s addr rest hs
  have answers (r : Reg) (h : addr = r.addr) : step s = .next (s.answered rest (.value (s.readReg r))) :=
    step_read_mapped hs (h ▸ regAt_addr r)
  exact ⟨fun h => step_read_unmapped hs (regAt_eq_none h),
    answers .cmd, answers .status, answers .den, answers .w,
    fun k h => answers (.px k .r) h,
    fun k h => answers (.px k .g) (by simp only [Reg.addr]; omega),
    fun k h => answers (.px k .b) (by simp only [Reg.addr]; omega),
    answers (.q .a), answers (.q .b), answers (.q .c), answers (.q .d), answers (.q .pb), answers (.q .pr)⟩

/-- Settles O10: outside the abort state a write is `writeReg` of the register at the address, whose effect
each clause writes out. -/
theorem busWriteStoresRegister : Obligations.BusWriteStoresRegister := by
  intro s addr v rest hs
  refine ⟨fun h => step_write_unmapped hs (regAt_eq_none h), fun h => ?_, fun herr hne hmod hlt => ?_,
    fun herr => ?_⟩
  · rw [step_write_mapped hs (r := .status) (h ▸ rfl) (by decide)]
    exact congrArg Host.Outcome.next (ite_self _)
  · obtain ⟨r, rfl⟩ := exists_addr_eq hmod hlt
    have hc : r ≠ .cmd := fun h => hne (by rw [h]; rfl)
    rw [step_write_mapped hs (regAt_addr r) hc, if_pos herr]
  · have stores (r : Reg) (hc : r ≠ .cmd) (h : addr = r.addr) :
        step s = .next ((s.answered rest .okay).writeReg v r) := by
      rw [step_write_mapped hs (h ▸ regAt_addr r) hc, if_neg (by simp [herr])]
    exact ⟨stores .den (by decide), stores .w (by decide),
      fun k h => stores (.px k .r) (by simp) h,
      fun k h => stores (.px k .g) (by simp) (by simp only [Reg.addr]; omega),
      fun k h => stores (.px k .b) (by simp) (by simp only [Reg.addr]; omega),
      stores (.q .a) (by decide), stores (.q .b) (by decide), stores (.q .c) (by decide),
      stores (.q .d) (by decide), stores (.q .pb) (by decide), stores (.q .pr) (by decide)⟩

/-- A bus write leaves every other register as it reads. -/
theorem readReg_writeReg_other (s : State) (v : Word) {r r' : Reg} (hne : r' ≠ r) :
    (s.writeReg v r).readReg r' = s.readReg r' := by
  cases r with
  | cmd | status => rfl
  | den =>
    cases r' with
    | den => exact absurd rfl hne
    | _ => rfl
  | w =>
    cases r' with
    | w => exact absurd rfl hne
    | _ => rfl
  | px k c =>
    cases r' with
    | px k' c' =>
      simp only [State.writeReg, State.readReg, State.setPx_px]
      by_cases hk : k' = k
      · subst hk
        have hchan : c' ≠ c := fun h => hne (congrArg (Reg.px k') h)
        rw [Quad.get_set_same, Pixel.get_set_other _ _ hchan]
      · rw [Quad.get_set_other _ _ _ _ hk]
    | _ => rfl
  | q f =>
    cases r' with
    | q f' => exact Quant.get_set_other s.q v fun h => hne (congrArg Reg.q h)
    | _ => rfl

/-- Settles O12: a register reads back what its setter stored, and no setter reaches another register. -/
theorem registerWriteReadsBack : Obligations.RegisterWriteReadsBack := by
  intro s v r r' hcmd hstatus
  refine ⟨?_, readReg_writeReg_other s v⟩
  cases r with
  | cmd => exact absurd rfl hcmd
  | status => exact absurd rfl hstatus
  | den | w => rfl
  | px k c =>
    simp only [State.writeReg, State.readReg, State.setPx_px, Quad.get_set_same, Pixel.get_set_same]
    rfl
  | q f => exact Quant.get_set_same s.q f v

/-! ### What stops a step (spec/93_implementation_defined.md section 2 and I6) -/

/-- A command is ignored or runs its stages; either way it answers a next state. -/
theorem runCommand_answers (eop : Byte) (stages : List (Byte × (State → Except Raise State))) (s : State) :
    ∃ t, runCommand eop stages s = .next t := by
  cases herr : s.status.err with
  | true => exact ⟨_, runCommand_aborted _ _ _ herr⟩
  | false => exact ⟨_, runCommand_running _ _ _ herr⟩

theorem exec_answers (i : Instr) (s : State) : ∃ t, exec i s = .next t := by
  cases i with
  | rst => exact ⟨_, exec_rst s⟩
  | _ => exact runCommand_answers _ _ s

theorem dispatchCommand_answers (v : Word) (s : State) : ∃ t, dispatchCommand exec v s = .next t := by
  unfold dispatchCommand
  split
  · exact exec_answers _ s
  · split <;> exact ⟨_, rfl⟩

theorem step_write_answers {s : State} {addr : Nat} {v : Word} {rest : List Transaction}
    (hs : s.script = .write addr v :: rest) : ∃ t, step s = .next t := by
  cases hr : regAt addr with
  | none => exact ⟨_, step_write_unmapped hs hr⟩
  | some r =>
    by_cases hc : r = .cmd
    · subst hc
      obtain rfl := eq_zero_of_regAt_eq_cmd hr
      rw [step_write_cmd hs]
      exact dispatchCommand_answers v _
    · exact ⟨_, step_write_mapped hs hr hc⟩

/-- Settles O17: every command answers a next state, and of the host's transactions only Drain has another
outcome. -/
theorem onlyOverlongDrainStops : Obligations.OnlyOverlongDrainStops := by
  refine ⟨exec_answers, fun s => ?_⟩
  cases hs : s.script with
  | nil => exact .inl ⟨_, step_of_script_nil hs⟩
  | cons t rest =>
    cases t with
    | read addr => exact .inl ⟨_, step_of_script_cons hs⟩
    | write addr v => exact .inl (step_write_answers hs)
    | feed bytes => exact .inl ⟨_, step_feed hs⟩
    | drain n =>
      rw [step_drain hs]
      split
      · exact .inl ⟨_, rfl⟩
      · exact .inr ⟨rfl, n, rest, rfl, by omega⟩
    | hreset => exact .inl ⟨_, step_of_script_hreset hs⟩

end Sys2Proof.Machine

/-! ### Blocks (spec/20_memory.md R77 to R79) -/

namespace Sys2Proof.Machine

open Sys2Proof

/-- The samples of a block of pixels (spec/41_color_convert.md R150). -/
def blockSamples (px : Quad Pixel) (den : Half) : Quad Sample :=
  ⟨forwardSample px.tl den, forwardSample px.tr den, forwardSample px.bl den, forwardSample px.br den⟩

/-- The pixels of a block of samples (spec/41_color_convert.md R152). -/
def blockPixels (cs : Quad Sample) (den : Half) : Quad Pixel :=
  ⟨inversePixel cs.tl den, inversePixel cs.tr den, inversePixel cs.bl den, inversePixel cs.br den⟩

/-- Whether CSCI clamps a channel of one of the samples of a block (spec/41_color_convert.md R152). -/
def blockClamps (cs : Quad Sample) (den : Half) : Bool :=
  inverseClamps cs.tl den || inverseClamps cs.tr den || inverseClamps cs.bl den || inverseClamps cs.br den

/-- A register that holds a number below 16 passes the index check of DQN (spec/43_quantize.md R172). -/
theorem badIndex_ofNat {n : Nat} (h : n < 16) : badIndex (BitVec.ofNat 32 n) = false := by
  have hn : (BitVec.ofNat 32 n).toInt = n := by
    rw [BitVec.toInt_eq_toNat_cond, BitVec.toNat_ofNat]; split <;> omega
  simp only [badIndex, hn, decide_eq_false_iff_not]
  omega

/-- DQN accepts what UNPK writes, since the two chroma fields have four bits each. -/
theorem stageDqn_unpacked (s : State) (w : Word) : stageDqn (s.setQ (unpacked w)) =
    .ok ((s.setQ (unpacked w)).setCf (dequantised s.table (unpacked w))) := by
  have hpb : badIndex (unpacked w).pb = false := badIndex_ofNat (getu_lt w 4 4)
  have hpr : badIndex (unpacked w).pr = false := badIndex_ofNat (getu_lt w 4 0)
  simp [stageDqn, hpb, hpr]

theorem stageCscf_error (k : Pos) {s : State} (hden : s.den = 0) :
    stageCscf k s = .error ⟨.badDenominator, einfoOf k⟩ := if_pos hden

theorem stageCsci_error (k : Pos) {s : State} (hden : s.den = 0) :
    stageCsci k s = .error ⟨.badDenominator, einfoOf k⟩ := if_pos hden

/-- The rounded Q.a of QNT does not fit 32 bits (spec/43_quantize.md R170). -/
def lumaOverflows (f : Coeffs) : Bool := decide (rnd (f.a * 511) < -(2 ^ 31) ∨ 2 ^ 31 - 1 < rnd (f.a * 511))

theorem stageQnt_error {s : State} (h : lumaOverflows s.cf = true) :
    stageQnt s = .error ⟨.fieldOverflow, 0⟩ := if_pos (of_decide_eq_true h)

theorem stageQnt_of_fits {s : State} (h : lumaOverflows s.cf = false) :
    stageQnt s = .ok (s.setQ (quantised s.table s.cf)) := if_neg (of_decide_eq_false h)

theorem stageBtf_eq (s : State) : stageBtf s = .ok (s.setCf (forwardBlock s.cs)) := rfl

theorem stageBti_eq (s : State) : stageBti s = .ok (s.setCs (inverseBlock s.cf)) := rfl

theorem stageUnpk_eq (s : State) : stageUnpk s = .ok (s.setQ (unpacked s.w)) := rfl

section composites
variable (eop : Byte) (rest : List (Byte × (State → Except Raise State))) {s : State}

/-- The four CSCF stages of ENCB write the samples of the block and nothing else. -/
theorem runStages_cscf_block (hden : s.den ≠ 0) :
    runStages eop ((0x01, stageCscf .tl) :: (0x01, stageCscf .tr) :: (0x01, stageCscf .bl) ::
      (0x01, stageCscf .br) :: rest) s = runStages eop rest (s.setCs (blockSamples s.px s.den)) := by
  simp only [runStages, stageCscf, hden, State.setCs_den, if_false]
  rfl

/-- The four CSCI stages of DECB write the pixels of the block and the clamps. -/
theorem runStages_csci_block (hden : s.den ≠ 0) :
    runStages eop [(0x02, stageCsci .tl), (0x02, stageCsci .tr), (0x02, stageCsci .bl),
      (0x02, stageCsci .br)] s =
        (s.setPx (blockPixels s.cs s.den)).setStatus (s.status.noteClamp (blockClamps s.cs s.den)) := by
  simp only [runStages, stageCsci, hden, State.setPx_den, State.setStatus_den, if_false, Status.noteClamp,
    State.setStatus_status, blockClamps, ← Bool.or_assoc]
  rfl

end composites

/-- The bytes that ENCB appends for a block of pixels, none when one of its stages faults
(spec/46_composite_system.md R203): a function of the pixels, DEN and the table only. -/
def encodedBytes (table : ChromaTable) (den : Half) (px : Quad Pixel) : Option (List Byte) :=
  let f := forwardBlock (blockSamples px den)
  let w := packed (quantised table f)
  if den = 0 then none
  else if lumaOverflows f then none
  else if firstUnfit (quantised table f) ≠ none then none
  else some [w.extractLsb' 24 8, w.extractLsb' 16 8, w.extractLsb' 8 8, w.extractLsb' 0 8]

/-- ENCB outside the abort state, in closed form: it appends `encodedBytes`, or faults where that is none. -/
theorem exec_encb_appends {s : State} (herr : s.status.err = false) :
    ∃ t, exec .encb s = .next t ∧ t.status.err = (encodedBytes s.table s.den s.px).isNone ∧
      t.ofifo = s.ofifo ++ (encodedBytes s.table s.den s.px).getD [] := by
  refine ⟨_, runCommand_running _ _ _ herr, ?_⟩
  by_cases hden : s.den = 0#16
  · rw [encbStages, runStages_error _ _ _ _ _ (stageCscf_error .tl hden)]
    simp [encodedBytes, hden]
  rw [encbStages, runStages_cscf_block _ _ hden, runStages_ok _ _ _ _ _ (stageBtf_eq _)]
  cases hluma : lumaOverflows (forwardBlock (blockSamples s.px s.den)) with
  | true =>
    rw [runStages_error _ _ _ _ _ (stageQnt_error ?_)]
    · simp [encodedBytes, hden, hluma]
    · exact hluma
  | false =>
    rw [runStages_ok _ _ _ _ _ (stageQnt_of_fits ?_)]
    · cases hfit : firstUnfit (quantised s.table (forwardBlock (blockSamples s.px s.den))) with
      | some i => simp [runStages, stagePack, encodedBytes, hden, hluma, hfit]
      | none => simp [runStages, stagePack, stageSer, encodedBytes, hden, hluma, hfit, herr]
    · exact hluma

/-- The pixels that DECB writes for the bytes it consumes, none when one of its stages faults
(spec/46_composite_system.md R204): a function of the bytes, DEN and the table only. UNPK leaves no chroma
index that DQN rejects. -/
def decodedPixels (table : ChromaTable) (den : Half) : List Byte → Option (Quad Pixel)
  | [b0, b1, b2, b3] =>
    if den = 0 then none
    else some (blockPixels (inverseBlock (dequantised table (unpacked (wordOfBytes b0 b1 b2 b3)))) den)
  | _ => none

/-- DECB outside the abort state, in closed form: it writes `decodedPixels` of the first four bytes of IFIFO
to PX, or faults where that is none. -/
theorem exec_decb_writes {s : State} (herr : s.status.err = false) :
    ∃ t, exec .decb s = .next t ∧ t.status.err = (decodedPixels s.table s.den (s.ififo.take 4)).isNone ∧
      ∀ px, decodedPixels s.table s.den (s.ififo.take 4) = some px → t.px = px := by
  refine ⟨_, runCommand_running _ _ _ herr, ?_⟩
  match hi : s.ififo with
  | [] | [_] | [_, _] | [_, _, _] => simp [decbStages, runStages, stageDes, iPop4, hi, decodedPixels]
  | b0 :: b1 :: b2 :: b3 :: rest =>
    have hdes : stageDes s = .ok ((s.setIfifo rest).setW (wordOfBytes b0 b1 b2 b3)) := by
      rw [stageDes, hi, iPop4]
    rw [decbStages, runStages_ok _ _ _ _ _ hdes, runStages_ok _ _ _ _ _ (stageUnpk_eq _),
      runStages_ok _ _ _ _ _ (stageDqn_unpacked _ _), runStages_ok _ _ _ _ _ (stageBti_eq _)]
    by_cases hden : s.den = 0#16
    · rw [runStages_error _ _ _ _ _ (stageCsci_error .tl ?_)]
      · simp [decodedPixels, hden]
      · exact hden
    · rw [runStages_csci_block]
      · simp [decodedPixels, hden, Status.noteClamp, herr]
      · exact hden

/-- Settles O55: what ENCB appends is a function of the table, DEN and PX, and what DECB writes to PX a
function of the table, DEN and the first four bytes of IFIFO. -/
theorem blocksAreIndependent : Obligations.BlocksAreIndependent := by
  intro s u hs hu hden htable
  refine ⟨fun hpx => ?_, fun hbytes => ?_⟩
  · obtain ⟨t, ht, hterr, htbytes⟩ := exec_encb_appends hs
    obtain ⟨v, hv, hverr, hvbytes⟩ := exec_encb_appends hu
    rw [htable, hden, hpx] at hverr hvbytes
    exact ⟨t, v, _, ht, hv, hverr.trans hterr.symm, htbytes, hvbytes⟩
  · obtain ⟨t, ht, hterr, htpx⟩ := exec_decb_writes hs
    obtain ⟨v, hv, hverr, hvpx⟩ := exec_decb_writes hu
    rw [htable, hden, hbytes] at hverr hvpx
    refine ⟨t, v, ht, hv, hverr.trans hterr.symm, fun hok => ?_⟩
    rw [hterr, Option.isNone_eq_false_iff, Option.isSome_iff_exists] at hok
    obtain ⟨px, hpx⟩ := hok
    rw [hvpx px hpx, htpx px hpx]

/-! ### The blocks of an image (spec/20_memory.md R77, R78, spec/70_reset_and_hazards.md R263, R264) -/

theorem trimmed_half (n : Nat) : trimmed n / 2 = n / 2 := by
  unfold trimmed; omega

/-- The position of the pixel (x, y) in the block that holds it. -/
def positionOf (x y : Nat) : Pos :=
  if y % 2 = 0 then (if x % 2 = 0 then .tl else .tr) else (if x % 2 = 0 then .bl else .br)

theorem blockPixel_positionOf (x y : Nat) : blockPixel (y / 2) (x / 2) (positionOf x y) = (x, y) := by
  unfold positionOf
  split_ifs <;> simp only [blockPixel, Prod.mk.injEq] <;> omega

/-- A pixel lies in no other block and at no other position. -/
theorem eq_of_blockPixel_eq {i j x y : Nat} {k : Pos} (h : blockPixel i j k = (x, y)) :
    i = y / 2 ∧ j = x / 2 ∧ k = positionOf x y := by
  cases k <;> cases h <;> refine ⟨by omega, by omega, ?_⟩ <;> simp [positionOf]

/-- The blocks in stream order number the body words (spec/20_memory.md R77). -/
theorem blockOrder_length (wd ht : Nat) : (blockOrder wd ht).length = bodyWords wd ht := by
  simp [blockOrder, bodyWords, List.length_flatMap, Nat.mul_comm]

/-- The word of a block stands at the block's place in the stream order (spec/20_memory.md R78). -/
theorem blockOrder_getElem?_wordIndex {wd ht i j : Nat} (hi : i < ht / 2) (hj : j < wd / 2) :
    (blockOrder wd ht)[wordIndex wd i j]? = some (i, j) := by
  unfold blockOrder wordIndex
  generalize ht / 2 = n at hi
  generalize wd / 2 = m at hj
  induction n with
  | zero => omega
  | succ n ih =>
    have hlen : ((List.range n).flatMap fun i => (List.range m).map fun j => (i, j)).length = n * m := by
      simp [List.length_flatMap]
    rw [List.range_succ, List.flatMap_append]
    obtain hlt | rfl : i < n ∨ i = n := by omega
    · have hplace : i * m + j < n * m := by nlinarith
      rw [List.getElem?_append_left (by omega), ih hlt]
    · rw [List.getElem?_append_right (by omega), hlen]
      simp [hj]

/-- Settles O57: a pixel's block and position are the halves and the parities of its coordinates, and the
word of a block is its place in `blockOrder`, which also bounds the place and makes it the block's own. -/
theorem blocksTileTrimmedImage : Obligations.BlocksTileTrimmedImage := by
  intro wd ht
  refine ⟨by unfold trimmed; omega, by unfold trimmed; omega, by unfold trimmed; omega, ?_, ?_, ?_⟩
  · rw [bodyWords, trimmed_half, trimmed_half, trimmed, trimmed]
    ring
  · intro x y hx hy
    refine ⟨y / 2, x / 2, positionOf x y, ?_, ?_, blockPixel_positionOf x y,
      fun _ _ _ => eq_of_blockPixel_eq⟩
    · unfold trimmed at *; omega
    · unfold trimmed at *; omega
  · intro i j hi hj
    have hplace := blockOrder_getElem?_wordIndex hi hj
    refine ⟨?_, hplace, fun i' j' hi' hj' heq => ?_⟩
    · rw [← blockOrder_length]
      exact (List.getElem?_eq_some_iff.mp hplace).1
    · have hplace' := blockOrder_getElem?_wordIndex hi' hj'
      rw [heq, hplace] at hplace'
      cases hplace'
      exact ⟨rfl, rfl⟩

end Sys2Proof.Machine

/-! ### The command word (spec/30_encoding.md R91 to R95) -/

namespace Sys2Proof.Machine

open Sys2Proof

/-- The fields of the word made up of three fields are those fields (spec/30_encoding.md R91). -/
@[simp] theorem Command.ofWord_toWord (c : Command) : Command.ofWord c.toWord = c := by
  obtain ⟨rsv, k, opc⟩ := c
  have hrsv : (rsv ++ k ++ opc).extractLsb' 10 22 = rsv := by
    rw [BitVec.extractLsb'_append_eq_of_le (by decide)]
    exact BitVec.extractLsb'_append_eq_left
  have hk : (rsv ++ k ++ opc).extractLsb' 8 2 = k := by
    rw [BitVec.extractLsb'_append_eq_of_le (by decide)]
    exact BitVec.extractLsb'_append_eq_right
  have hopc : (rsv ++ k ++ opc).extractLsb' 0 8 = opc := BitVec.extractLsb'_append_eq_right
  simp only [Command.toWord, Command.ofWord, hrsv, hk, hopc]

/-- A command decodes to `i` when no reserved bit is set, `i` is the instruction of its opcode, and the K
field is 0 or an operand of `i`. -/
theorem Command.decode_eq_ok_iff {c : Command} {i : Instr} :
    c.decode = .ok i ↔ c.rsv = 0 ∧ instrOfOpcode c.opc c.k = some i ∧ (c.k = 0 ∨ takesK i = true) := by
  unfold Command.decode
  by_cases hrsv : c.rsv = 0
  case neg => exact ⟨by rw [if_pos hrsv]; nofun, fun h => absurd h.1 hrsv⟩
  rw [if_neg (not_not.mpr hrsv)]
  cases hj : instrOfOpcode c.opc c.k with
  | none => exact ⟨nofun, fun h => nomatch h.2.1⟩
  | some j =>
    have hoperand : ¬(c.k ≠ 0 ∧ takesK j = false) ↔ c.k = 0 ∨ takesK j = true := by
      rw [not_and_or, not_not, Bool.not_eq_false]
    dsimp only
    split_ifs with hk
    · refine ⟨nofun, ?_⟩
      rintro ⟨_, ⟨⟩, hk'⟩
      exact absurd hk (hoperand.mpr hk')
    · constructor
      · rintro ⟨⟩
        exact ⟨hrsv, rfl, hoperand.mp hk⟩
      · rintro ⟨_, ⟨⟩, _⟩
        rfl

/-- The decoder's table of R93 reads back the opcode and the K field that the encoder's table writes. -/
theorem instrOfOpcode_ofInstr (i : Instr) :
    instrOfOpcode (Command.ofInstr i).opc (Command.ofInstr i).k = some i := by
  cases i with
  | cscf k | csci k => simp [instrOfOpcode, Command.ofInstr, opcodeOf]
  | _ => rfl

theorem Command.decode_ofInstr (i : Instr) : (Command.ofInstr i).decode = .ok i := by
  have hk : (Command.ofInstr i).k = 0 ∨ takesK i = true := by
    cases ht : takesK i with
    | true => exact .inr rfl
    | false => exact .inl (ofInstr_k_of_not_takesK ht)
  exact Command.decode_eq_ok_iff.mpr ⟨rfl, instrOfOpcode_ofInstr i, hk⟩

theorem decode_encode (i : Instr) : decode (encode i) = .ok i := by
  rw [decode, encode, Command.ofWord_toWord, Command.decode_ofInstr]

/-- Settles O2: a word that decodes has the fields the encoder writes, and three fields make up one word; the
decoder finds in the word of an instruction the fields the encoder put there. -/
theorem decodeInvertsEncode : Obligations.DecodeInvertsEncode := fun i _ =>
  ⟨eq_encode_of_decode, fun h => h ▸ decode_encode i⟩

/-- The opcodes that have an instruction are the 14 of R93, whatever the K field. -/
theorem exists_instrOfOpcode_iff {opc : Byte} {k : BitVec 2} :
    (∃ i, instrOfOpcode opc k = some i) ↔ opc ∈ legalOpcodes := by
  constructor
  · rintro ⟨i, hi⟩
    obtain ⟨rfl, _⟩ := fields_of_instrOfOpcode hi
    cases i <;> simp [opcodeOf, legalOpcodes]
  · intro h
    unfold legalOpcodes at h
    fin_cases h <;> exact ⟨_, rfl⟩

/-- The instructions with the operand K are those of the opcodes CSCF and CSCI. -/
theorem takesK_iff_opcodeOf (i : Instr) : takesK i = true ↔ opcodeOf i = 0x01 ∨ opcodeOf i = 0x02 := by
  cases i <;> simp [takesK, opcodeOf]

/-- The three conditions of R94 on the fields of a command, as the decoder meets them. -/
theorem Command.exists_decode_iff (c : Command) :
    (∃ i, c.decode = .ok i) ↔
      c.rsv = 0 ∧ c.opc ∈ legalOpcodes ∧ (c.opc = 0x01 ∨ c.opc = 0x02 ∨ c.k = 0) := by
  have hoperand {i : Instr} (hi : instrOfOpcode c.opc c.k = some i) :
      (c.k = 0 ∨ takesK i = true) ↔ (c.opc = 0x01 ∨ c.opc = 0x02 ∨ c.k = 0) := by
    rw [takesK_iff_opcodeOf, ← (fields_of_instrOfOpcode hi).1, or_comm, or_assoc]
  simp only [Command.decode_eq_ok_iff]
  constructor
  · rintro ⟨i, hrsv, hi, hk⟩
    exact ⟨hrsv, exists_instrOfOpcode_iff.mp ⟨i, hi⟩, (hoperand hi).mp hk⟩
  · rintro ⟨hrsv, hopc, hk⟩
    obtain ⟨i, hi⟩ := exists_instrOfOpcode_iff.mpr hopc
    exact ⟨i, hrsv, hi, (hoperand hi).mpr hk⟩

/-- Settles O3: the conditions on the fields of a command, for the fields of the word. -/
theorem decodeAcceptsLegalWordsOnly : Obligations.DecodeAcceptsLegalWordsOnly := fun v =>
  Command.exists_decode_iff (Command.ofWord v)

/-- Settles O1: each of the 20 words is the encoding of the instruction of its row. -/
theorem commandWordsDecodeByTable : Obligations.CommandWordsDecodeByTable := by
  unfold Obligations.CommandWordsDecodeByTable
  simp only [decodeInvertsEncode _ _]
  decide

end Sys2Proof.Machine

/-! ### Rounding and clamping (spec/40_numerics.md R122, R123) -/

namespace Sys2Proof.Machine

open Sys2Proof

/-- Rounding is odd: away from 0 the two branches of `rnd` mirror each other. -/
theorem rnd_neg (x : QNum) : rnd (-x) = -rnd x := by
  rcases lt_trichotomy x 0 with hx | rfl | hx
  · rw [rnd_of_nonneg (neg_nonneg.mpr hx.le), rnd_of_neg hx, neg_neg]
  · have hzero : rnd 0 = 0 := by exact_mod_cast rnd_intCast 0
    rw [neg_zero, hzero, neg_zero]
  · rw [rnd_of_neg (neg_lt_zero.mpr hx), rnd_of_nonneg hx.le, neg_neg]

/-- The half-open unit interval around `rnd x`, for `x` not negative: the tie at its lower end is rounded up. -/
theorem rnd_interval {x : QNum} (hx : 0 ≤ x) : (rnd x : QNum) - 1/2 ≤ x ∧ x < rnd x + 1/2 := by
  have hfloor := (Int.floor_eq_iff (a := x + 1/2)).mp (rnd_of_nonneg hx).symm
  constructor <;> linarith [hfloor.1, hfloor.2]

theorem rnd_nonneg {x : QNum} (hx : 0 ≤ x) : 0 ≤ rnd x := by
  rw [rnd_of_nonneg hx]
  exact Int.floor_nonneg.mpr (by linarith)

/-- Rounding moves a value by at most 1/2. -/
theorem abs_sub_rnd_le_half (x : QNum) : |x - rnd x| ≤ 1/2 := by
  have hnonneg {y : QNum} (hy : 0 ≤ y) : |y - rnd y| ≤ 1/2 := by
    obtain ⟨hlow, hhigh⟩ := rnd_interval hy
    rw [abs_le]; constructor <;> linarith
  rcases le_total 0 x with hx | hx
  · exact hnonneg hx
  · have hneg := hnonneg (neg_nonneg.mpr hx)
    rwa [rnd_neg, Int.cast_neg, neg_sub_neg, abs_sub_comm] at hneg

/-- No integer is nearer to `x`: another one is at least 1 away from `rnd x`, hence at least 1/2 from `x`. -/
theorem abs_sub_rnd_le (x : QNum) (n : Int) : |x - rnd x| ≤ |x - n| := by
  rcases eq_or_ne (rnd x) n with rfl | hne
  · exact le_rfl
  · have hapart : (1 : QNum) ≤ |(rnd x : QNum) - n| := by
      exact_mod_cast Int.one_le_abs (sub_ne_zero.mpr hne)
    have htriangle := abs_sub_le (rnd x : QNum) x n
    rw [abs_sub_comm (rnd x : QNum) x] at htriangle
    linarith [abs_sub_rnd_le_half x]

/-- Of two integers equally near to a value that is not negative, `rnd` answers the one farther from zero:
the other one is its mirror image `2x - rnd x`. -/
theorem abs_le_rnd_of_tie {x : QNum} (hx : 0 ≤ x) {n : Int} (htie : |x - rnd x| = |x - n|) : |n| ≤ rnd x := by
  obtain ⟨-, hhigh⟩ := rnd_interval hx
  rcases abs_eq_abs.mp htie with heq | hmirror
  · have : n = rnd x := by exact_mod_cast (sub_right_inj.mp heq).symm
    rw [this, abs_of_nonneg (rnd_nonneg hx)]
  · have hlow : -(rnd x) ≤ n := by
      have : -(rnd x : QNum) ≤ n := by linarith
      exact_mod_cast this
    have hbelow : n < rnd x + 1 := by
      have : (n : QNum) < rnd x + 1 := by linarith
      exact_mod_cast this
    exact abs_le.mpr ⟨hlow, by omega⟩

/-- An integer as near to `x` as `rnd x` is no farther from zero. -/
theorem abs_le_abs_rnd_of_tie {x : QNum} {n : Int} (htie : |x - rnd x| = |x - n|) : |n| ≤ |rnd x| := by
  rcases le_total 0 x with hx | hx
  · exact (abs_le_rnd_of_tie hx htie).trans (le_abs_self _)
  · have hmirrored : |-x - rnd (-x)| = |-x - (-n : Int)| := by
      simpa only [rnd_neg, Int.cast_neg, neg_sub_neg, abs_sub_comm _ x] using htie
    have hle := abs_le_rnd_of_tie (neg_nonneg.mpr hx) hmirrored
    rw [abs_neg, rnd_neg] at hle
    exact hle.trans (neg_le_abs _)

/-- Settles O40: the formula, the nearest integer, the tie and the sign, each by its lemma. -/
theorem roundingIsNearestTiesAway : Obligations.RoundingIsNearestTiesAway := fun x =>
  ⟨rnd_of_nonneg, rnd_of_neg, abs_sub_rnd_le_half x, abs_sub_rnd_le x,
    fun _ htie => by exact_mod_cast abs_le_abs_rnd_of_tie htie, rnd_neg x⟩

theorem clampNum_of_lt {x lo : QNum} (hi : QNum) (hx : x < lo) : clampNum x lo hi = lo := if_pos hx

theorem clampNum_of_gt {x lo hi : QNum} (hle : lo ≤ hi) (hx : hi < x) : clampNum x lo hi = hi := by
  rw [clampNum, if_neg (hle.trans hx.le).not_gt, if_pos hx]

theorem clampInt_of_lt {x lo : Int} (hi : Int) (hx : x < lo) : clampInt x lo hi = lo := if_pos hx

theorem clampInt_of_gt {x lo hi : Int} (hle : lo ≤ hi) (hx : hi < x) : clampInt x lo hi = hi := by
  rw [clampInt, if_neg (hle.trans hx.le).not_gt, if_pos hx]

theorem clampInt_of_mem {x lo hi : Int} (hlo : lo ≤ x) (hhi : x ≤ hi) : clampInt x lo hi = x := by
  rw [clampInt, if_neg hlo.not_gt, if_neg hhi.not_gt]

/-- Settles O41: the three cases of clamp, on Q and on integers. -/
theorem clampKeepsWithinBounds : Obligations.ClampKeepsWithinBounds :=
  ⟨fun _ _ hi hle => ⟨clampNum_of_lt hi, clampNum_of_gt hle, clampNum_of_mem⟩,
    fun _ _ hi hle => ⟨clampInt_of_lt hi, clampInt_of_gt hle, clampInt_of_mem⟩⟩

end Sys2Proof.Machine

/-! ### The chroma quantizer functions (spec/40_numerics.md R127 to R130) -/

namespace Sys2Proof.Machine

open Sys2Proof

/-- The table in the order of its indices (spec/40_numerics.md R127). -/
theorem cqValue_strictMono (t : ChromaTable) : StrictMono (cqValue t) := fun i j hij =>
  List.pairwise_iff_getElem.mp t.rising i j (by simp) (by simp) hij

/-- What the scan answers, for indices in rising order: none of them is nearer, and a lower one is strictly
farther. -/
theorem cqScan_nearest_lowest (t : ChromaTable) (x : QNum) {l : List (Fin 16)} {best : Fin 16}
    (hsorted : (best :: l).Pairwise (· < ·)) {j : Fin 16} (hj : j ∈ best :: l) :
    |x - cqValue t (cqScan t x l best)| ≤ |x - cqValue t j| ∧
      (j < cqScan t x l best → |x - cqValue t (cqScan t x l best)| < |x - cqValue t j|) := by
  induction l generalizing best j with
  | nil =>
    obtain rfl : j = best := List.mem_singleton.mp hj
    exact ⟨le_rfl, fun hlt => absurd hlt (lt_irrefl j)⟩
  | cons i rest ih =>
    have hi : best < i := List.rel_of_pairwise_cons hsorted List.mem_cons_self
    have hirest : (i :: rest).Pairwise (· < ·) := hsorted.of_cons
    simp only [cqScan, absNum_eq]
    split
    case isTrue hnearer =>
      rcases List.mem_cons.mp hj with rfl | hj
      · have hlt := (ih hirest List.mem_cons_self).1.trans_lt hnearer
        exact ⟨hlt.le, fun _ => hlt⟩
      · exact ih hirest hj
    case isFalse hnearer =>
      have hbestrest : (best :: rest).Pairwise (· < ·) := hsorted.sublist (by simp)
      by_cases hji : j = i
      · obtain ⟨hle, hlt⟩ := ih hbestrest List.mem_cons_self
        have hnearer := not_lt.mp hnearer
        subst hji
        exact ⟨hle.trans hnearer, fun h => (hlt (hi.trans h)).trans_le hnearer⟩
      · exact ih hbestrest (by simpa [hji] using hj)

/-- The chroma index is the lowest index of a nearest table value (spec/40_numerics.md R128). -/
theorem cqIndex_nearest_lowest (t : ChromaTable) (x : QNum) (j : Fin 16) :
    |x - cqValue t (cqIndex t x)| ≤ |x - cqValue t j| ∧
      (j < cqIndex t x → |x - cqValue t (cqIndex t x)| < |x - cqValue t j|) :=
  cqScan_nearest_lowest t x (by decide) (by revert j; decide)

/-- Settles O42: the scan visits all 16 indices in rising order. -/
theorem chromaIndexIsNearestLowest : Obligations.ChromaIndexIsNearestLowest := cqIndex_nearest_lowest

/-- Of two values, the greater one is strictly nearer exactly above their midpoint. -/
theorem abs_sub_lt_abs_sub_iff {a b : QNum} (hab : a < b) (x : QNum) :
    |x - b| < |x - a| ↔ (a + b) / 2 < x := by
  have hsquares : (x - a) ^ 2 - (x - b) ^ 2 = 2 * (b - a) * (x - (a + b) / 2) := by ring
  rw [← sq_lt_sq, ← sub_pos, hsquares, mul_pos_iff_of_pos_left (by linarith), sub_pos]

/-- An index below the chroma index: `x` lies above the midpoint of the two table values. -/
theorem midpoint_lt_of_lt_cqIndex {t : ChromaTable} {x : QNum} {i : Fin 16} (h : i < cqIndex t x) :
    (cqValue t i + cqValue t (cqIndex t x)) / 2 < x :=
  (abs_sub_lt_abs_sub_iff (cqValue_strictMono t h) x).mp ((cqIndex_nearest_lowest t x i).2 h)

/-- An index above the chroma index: `x` lies at most at the midpoint of the two table values. -/
theorem le_midpoint_of_cqIndex_lt {t : ChromaTable} {x : QNum} {j : Fin 16} (h : cqIndex t x < j) :
    x ≤ (cqValue t (cqIndex t x) + cqValue t j) / 2 :=
  not_lt.mp <| (abs_sub_lt_abs_sub_iff (cqValue_strictMono t h) x).not.mp
    (cqIndex_nearest_lowest t x j).1.not_gt

/-- Fixed point (spec/40_numerics.md R130 (a)): the entry itself is at distance 0. -/
@[simp] theorem cqIndex_cqValue (t : ChromaTable) (i : Fin 16) : cqIndex t (cqValue t i) = i := by
  have hdist := (cqIndex_nearest_lowest t (cqValue t i) i).1
  rw [sub_self, abs_zero, abs_nonpos_iff, sub_eq_zero] at hdist
  exact ((cqValue_strictMono t).injective hdist).symm

/-- Monotony (spec/40_numerics.md R130 (c)): were the indices in the other order, `y` would be at most at the
midpoint of their values and `x` above it. -/
theorem cqIndex_mono (t : ChromaTable) : Monotone (cqIndex t) := by
  intro x y hxy
  by_contra! hlt
  exact absurd ((midpoint_lt_of_lt_cqIndex hlt).trans_le hxy) (le_midpoint_of_cqIndex_lt hlt).not_gt

/-- Decision thresholds (spec/40_numerics.md R130 (d)): between neighbours `i` and `j`, every other pair of
entries on the two sides has its midpoint on its own side of theirs. -/
theorem le_cqIndex_iff (t : ChromaTable) (x : QNum) {i j : Fin 16} (hij : i.val + 1 = j.val) :
    j ≤ cqIndex t x ↔ (cqValue t i + cqValue t j) / 2 < x := by
  have hmono := (cqValue_strictMono t).monotone
  constructor
  · intro hj
    have hmid := midpoint_lt_of_lt_cqIndex (show i < cqIndex t x by omega)
    linarith [hmono hj]
  · intro hx
    by_contra! hlt
    have hmid := le_midpoint_of_cqIndex_lt hlt
    linarith [hmono (show cqIndex t x ≤ i by omega)]

/-- Settles O43: saturation at both ends is monotony from the fixed points 0 and 15. -/
theorem chromaIndexThresholds : Obligations.ChromaIndexThresholds := by
  intro t
  refine ⟨cqIndex_cqValue t, fun x hx => ?_, fun x hx => ?_, fun _ _ hxy => cqIndex_mono t hxy,
    fun x _ _ hij => le_cqIndex_iff t x hij⟩
  · have hle : cqIndex t x ≤ cqIndex t (cqValue t 0) := cqIndex_mono t hx
    rw [cqIndex_cqValue] at hle
    exact Fin.le_zero_iff.mp hle
  · have hle : cqIndex t (cqValue t 15) ≤ cqIndex t x := cqIndex_mono t hx
    rw [cqIndex_cqValue] at hle
    exact Fin.last_le_iff.mp hle

end Sys2Proof.Machine

/-! ### Insert and extract (spec/40_numerics.md R124 to R126) -/

namespace Sys2Proof.Machine

open Sys2Proof

section fields

variable {n lsb : Nat} {v : Int}

/-- An unsigned value that fits is extracted again. -/
theorem getu_newu (w : Word) (hfield : n + lsb ≤ 32) (h0 : 0 ≤ v) (h1 : v < 2 ^ n) :
    getu (newu w n lsb v) n lsb = v.toNat := by
  have hv : v.toNat < 2 ^ n := by zify; rwa [Int.toNat_of_nonneg h0]
  refine Nat.eq_of_testBit_eq fun i => ?_
  rw [getu_testBit]
  by_cases hi : i < n
  · have hin : lsb ≤ lsb + i ∧ lsb + i < lsb + n := by omega
    rw [newu_getLsbD w h0 h1 (by omega), if_pos hin, Nat.add_sub_cancel_left, decide_eq_true hi, Bool.true_and]
  · rw [decide_eq_false hi, Bool.false_and,
      Nat.testBit_lt_two_pow (hv.trans_le (Nat.pow_le_pow_right two_pos (not_lt.mp hi)))]

/-- An unsigned insert leaves every bit outside the field alone. -/
theorem newu_getLsbD_outside (w : Word) (h0 : 0 ≤ v) (h1 : v < 2 ^ n) {i : Nat} (hi : i < lsb ∨ lsb + n ≤ i) :
    (newu w n lsb v).getLsbD i = w.getLsbD i := by
  rcases lt_or_ge i 32 with hword | hword
  · rw [newu_getLsbD w h0 h1 hword, if_neg (by omega)]
  · rw [BitVec.getLsbD_of_ge _ _ hword, BitVec.getLsbD_of_ge _ _ hword]

end fields

/-- Settles O44: the signed insert is the unsigned insert of the value modulo 2^N, which fits without a
condition, and the sign extension undoes the reduction. -/
theorem insertThenExtract : Obligations.InsertThenExtract := by
  intro w n lsb v hn hfield
  refine ⟨fun hfits => ?_, fun hfits => ?_⟩
  · obtain ⟨h0, h1⟩ := of_decide_eq_true hfits
    refine ⟨?_, fun _ => newu_getLsbD_outside w h0 h1⟩
    rw [getu_newu w hfield h0 h1, Int.toNat_of_nonneg h0]
  · obtain ⟨hlow, hhigh⟩ := of_decide_eq_true hfits
    have hpos : (0 : Int) < 2 ^ n := by positivity
    have h0 : 0 ≤ v % 2 ^ n := Int.emod_nonneg v hpos.ne'
    have h1 : v % 2 ^ n < 2 ^ n := Int.emod_lt_of_pos v hpos
    rw [news_eq_newu]
    refine ⟨?_, fun _ => newu_getLsbD_outside w h0 h1⟩
    rw [gets, getu_newu w hfield h0 h1, sextN_emod hn hlow hhigh]

end Sys2Proof.Machine

/-! ### Colour conversion (spec/41_color_convert.md R150 to R154) -/

namespace Sys2Proof.Machine

open Sys2Proof

/-- The opcode field of an encoded instruction (spec/30_encoding.md R91). -/
theorem encode_opc (i : Instr) : (encode i).extractLsb' 0 8 = opcodeOf i :=
  congrArg Command.opc (Command.ofWord_toWord (Command.ofInstr i))

/-- The K field of an encoded instruction (spec/30_encoding.md R91). -/
theorem encode_k (i : Instr) : (encode i).extractLsb' 8 2 = (Command.ofInstr i).k :=
  congrArg Command.k (Command.ofWord_toWord (Command.ofInstr i))

section commands

variable {eop estage : Byte} {op : State → Except Raise State} {s : State}

/-- A single command outside the abort state whose operation completes. -/
theorem runCommand_one_ok (herr : s.status.err = false) {t : State} (hop : op s = .ok t) :
    runCommand eop [(estage, op)] s = .next t := by
  rw [runCommand_running _ _ _ herr, runStages_ok _ _ _ _ _ hop, runStages_nil]

/-- A single command outside the abort state whose operation raises a fault. -/
theorem runCommand_one_error (herr : s.status.err = false) {r : Raise} (hop : op s = .error r) :
    runCommand eop [(estage, op)] s = .next (s.takeFault eop estage r) := by
  rw [runCommand_running _ _ _ herr, runStages_error _ _ _ _ _ hop]

theorem exec_cscf_badDenominator (k : Pos) (herr : s.status.err = false) (hden : s.den = 0) :
    exec (.cscf k) s = .next (s.withFaultRecord 2 0x01 0x01 (einfoOf k)) :=
  runCommand_one_error herr (stageCscf_error k hden)

theorem exec_cscf_converts (k : Pos) (herr : s.status.err = false) (hden : s.den ≠ 0) :
    exec (.cscf k) s = .next (s.setCs (s.cs.set k (forwardSample (s.px.get k) s.den))) :=
  runCommand_one_ok herr (if_neg hden)

theorem exec_csci_badDenominator (k : Pos) (herr : s.status.err = false) (hden : s.den = 0) :
    exec (.csci k) s = .next (s.withFaultRecord 2 0x02 0x02 (einfoOf k)) :=
  runCommand_one_error herr (stageCsci_error k hden)

theorem exec_csci_reconstructs (k : Pos) (herr : s.status.err = false) (hden : s.den ≠ 0) :
    exec (.csci k) s = .next ((s.setPx (s.px.set k (inversePixel (s.cs.get k) s.den))).setStatus
      (s.status.noteClamp (inverseClamps (s.cs.get k) s.den))) :=
  runCommand_one_ok herr (if_neg hden)

theorem execAll_cons {i : Instr} {t : State} (h : exec i s = .next t) (rest : List Instr) :
    execAll (i :: rest) s = execAll rest t := by
  rw [execAll, h]

end commands

/-- Settles O19: the two cases of DEN; the model writes the coefficient 1/2 as 5/10. -/
theorem cscfConvertsOnePixel : Obligations.CscfConvertsOnePixel := by
  intro k s herr
  refine ⟨encode_opc _, encode_k _, exec_cscf_badDenominator k herr, fun hden => ?_⟩
  have hhalf : (5/10 : QNum) = 1/2 := by norm_num
  rw [exec_cscf_converts k herr hden, forwardSample, hhalf]
  rfl

/-- A channel after the clamp of CSCI (spec/41_color_convert.md R152): the bounds fit 16 bits. -/
theorem clampChannel_toNat (n : Int) (den : Half) :
    ((clampChannel n den).toNat : Int) = max 0 (min n den.toNat) := by
  have hclamp : clampInt n 0 den.toNat = max 0 (min n den.toNat) := by
    unfold clampInt
    split_ifs <;> omega
  have hden := den.isLt
  rw [clampChannel, hclamp, BitVec.toNat_ofInt]
  omega

/-- CSCI sets SAT when one of the three rounded values lies outside 0..DEN (spec/41_color_convert.md R152). -/
theorem inverseClamps_eq (c : Sample) (den : Half) {nr ng nb : Int} (h : inverseChannels c den = (nr, ng, nb)) :
    inverseClamps c den = decide (nr < 0 ∨ nr > den.toNat ∨ ng < 0 ∨ ng > den.toNat ∨ nb < 0 ∨ nb > den.toNat) := by
  simp only [inverseClamps, outOfRange, h, ← Bool.decide_or, or_assoc, gt_iff_lt]

/-- Settles O20: the two cases of DEN; the pixel is the clamped one. -/
theorem csciReconstructsOnePixel : Obligations.CsciReconstructsOnePixel := by
  intro k s herr
  refine ⟨encode_opc _, encode_k _, exec_csci_badDenominator k herr, fun hden => ?_⟩
  refine ⟨inversePixel (s.cs.get k) s.den, clampChannel_toNat _ _, clampChannel_toNat _ _,
    clampChannel_toNat _ _, ?_⟩
  rw [exec_csci_reconstructs k herr hden, inverseClamps_eq _ _ rfl]
  rfl

/-- A grey pixel has the luma of its channels and no chroma (spec/41_color_convert.md R151 (a)). -/
theorem forwardSample_grey {p : Pixel} (hg : p.g = p.r) (hb : p.b = p.r) (den : Half) :
    forwardSample p den = ⟨normalise p.r den, 0, 0⟩ := by
  simp only [forwardSample, hg, hb, Sample.mk.injEq]
  refine ⟨?_, ?_, ?_⟩ <;> ring

theorem normalise_nonneg (v den : Half) : 0 ≤ normalise v den := by
  unfold normalise
  positivity

theorem normalise_le_one {v den : Half} (h : v.toNat ≤ den.toNat) : normalise v den ≤ 1 :=
  div_le_one_of_le₀ (by exact_mod_cast h) (Nat.cast_nonneg _)

/-- The sample of a pixel with channels up to DEN (spec/41_color_convert.md R151 (b)). -/
theorem forwardSample_bounds {p : Pixel} {den : Half} (h : ∀ c, (p.get c).toNat ≤ den.toNat) :
    0 ≤ (forwardSample p den).y ∧ (forwardSample p den).y ≤ 1 ∧
      |(forwardSample p den).pb| ≤ 1/2 ∧ |(forwardSample p den).pr| ≤ 1/2 := by
  have hr0 := normalise_nonneg p.r den
  have hg0 := normalise_nonneg p.g den
  have hb0 := normalise_nonneg p.b den
  have hr1 : normalise p.r den ≤ 1 := normalise_le_one (h .r)
  have hg1 : normalise p.g den ≤ 1 := normalise_le_one (h .g)
  have hb1 : normalise p.b den ≤ 1 := normalise_le_one (h .b)
  simp only [forwardSample, abs_le]
  refine ⟨?_, ?_, ⟨?_, ?_⟩, ?_, ?_⟩ <;> linarith

/-- Settles O45: what CSCF writes is the sample of the pixel. -/
theorem cscfSampleRanges : Obligations.CscfSampleRanges := by
  intro k s herr hden
  refine ⟨_, exec_cscf_converts k herr hden, herr, ?_⟩
  rw [State.setCs_cs, Quad.get_set_same]
  exact ⟨fun hg hb => forwardSample_grey hg hb s.den, forwardSample_bounds⟩

/-- The integer less than 1/2 away is the rounded value. -/
theorem rnd_eq_of_abs_sub_lt {x : QNum} {n : Int} (h : |x - n| < 1/2) : rnd x = n := by
  have hdist : |(rnd x : QNum) - n| < 1 := by
    have htriangle := abs_sub_le (rnd x : QNum) x n
    rw [abs_sub_comm (rnd x : QNum) x] at htriangle
    linarith [abs_sub_rnd_le_half x]
  exact sub_eq_zero.mp (Int.abs_lt_one_iff.mp (by exact_mod_cast hdist))

/-- The two matrices are inverse up to coefficients below a millionth, so on 16-bit channels the products with
DEN are less than 1/2 away from the channels (spec/41_color_convert.md R154), also from those above DEN. -/
theorem inverseChannels_forwardSample (p : Pixel) {den : Half} (hden : den ≠ 0) :
    inverseChannels (forwardSample p den) den = ((p.r.toNat : Int), (p.g.toNat : Int), (p.b.toNat : Int)) := by
  have hscale (v : Half) : normalise v den * den.toNat = v.toNat :=
    div_mul_cancel₀ _ (by simpa [← BitVec.toNat_inj] using hden)
  have hlt (v : Half) : (v.toNat : QNum) < 65536 := by exact_mod_cast v.isLt
  have hpos (v : Half) : (0 : QNum) ≤ v.toNat := Nat.cast_nonneg _
  simp only [inverseChannels, forwardSample, Prod.mk.injEq]
  refine ⟨rnd_eq_of_abs_sub_lt ?_, rnd_eq_of_abs_sub_lt ?_, rnd_eq_of_abs_sub_lt ?_⟩ <;>
    rw [abs_lt, Int.cast_natCast] <;>
    constructor <;>
    linarith [hscale p.r, hscale p.g, hscale p.b, hlt p.r, hlt p.g, hlt p.b, hpos p.r, hpos p.g, hpos p.b]

/-- A pixel that went through both matrices, channel by channel: only the clamp to DEN is left of them. -/
theorem inversePixel_forwardSample_get (p : Pixel) {den : Half} (hden : den ≠ 0) (c : Chan) :
    ((inversePixel (forwardSample p den) den).get c).toNat = min (p.get c).toNat den.toNat := by
  have hclamp (v : Half) : (clampChannel v.toNat den).toNat = min v.toNat den.toNat := by
    have := clampChannel_toNat v.toNat den
    omega
  rw [inversePixel, inverseChannels_forwardSample p hden]
  cases c <;> exact hclamp _

/-- A pixel that went through both matrices clamps when a channel was above DEN. -/
theorem inverseClamps_forwardSample (p : Pixel) {den : Half} (hden : den ≠ 0) :
    inverseClamps (forwardSample p den) den = true ↔ ∃ c, den.toNat < (p.get c).toNat := by
  rw [inverseClamps_eq _ _ (inverseChannels_forwardSample p hden), decide_eq_true_iff]
  constructor
  · intro h
    obtain h | h | h : den.toNat < p.r.toNat ∨ den.toNat < p.g.toNat ∨ den.toNat < p.b.toNat := by omega
    · exact ⟨.r, h⟩
    · exact ⟨.g, h⟩
    · exact ⟨.b, h⟩
  · rintro ⟨c, hc⟩
    cases c <;> simp only [Pixel.get] at hc <;> omega

theorem Pixel.ext_get {p q : Pixel} (h : ∀ c, p.get c = q.get c) : p = q := by
  cases p
  cases q
  exact (Pixel.mk.injEq ..).mpr ⟨h .r, h .g, h .b⟩

/-- CSCF k then CSCI k: the pixel and the clamps are those of the pixel's own sample. -/
theorem execAll_cscf_csci (k : Pos) {s : State} (herr : s.status.err = false) (hden : s.den ≠ 0) :
    ∃ t, execAll [.cscf k, .csci k] s = .next t ∧
      t.px = s.px.set k (inversePixel (forwardSample (s.px.get k) s.den) s.den) ∧
      t.status = s.status.noteClamp (inverseClamps (forwardSample (s.px.get k) s.den) s.den) := by
  have hcsci := exec_csci_reconstructs k
    (s := s.setCs (s.cs.set k (forwardSample (s.px.get k) s.den))) herr hden
  rw [State.setCs_cs, Quad.get_set_same] at hcsci
  exact ⟨_, (execAll_cons (exec_cscf_converts k herr hden) _).trans (execAll_cons hcsci _), rfl, rfl⟩

/-- Settles O46: both matrices together leave the clamp to DEN, which changes the channels above DEN only. -/
theorem pixelRoundTripsThroughColour : Obligations.PixelRoundTripsThroughColour := by
  intro k s herr hden
  obtain ⟨t, ht, hpx, hstatus⟩ := execAll_cscf_csci k herr hden
  have hget := inversePixel_forwardSample_get (s.px.get k) hden
  have hclamps := inverseClamps_forwardSample (s.px.get k) hden
  refine ⟨t, ht, fun hle => ?_, fun c hlt => ?_⟩
  · have hpixel : inversePixel (forwardSample (s.px.get k) s.den) s.den = s.px.get k :=
      Pixel.ext_get fun c => BitVec.eq_of_toNat_eq ((hget c).trans (min_eq_left (hle c)))
    have hfree : inverseClamps (forwardSample (s.px.get k) s.den) s.den = false :=
      Bool.eq_false_iff.mpr fun h => by
        obtain ⟨c, hc⟩ := hclamps.mp h
        exact absurd (hle c) hc.not_ge
    rw [hpx, hstatus, hpixel, hfree, Quad.set_get, Status.noteClamp, Bool.or_false]
    exact ⟨rfl, rfl⟩
  · rw [hpx, hstatus, Quad.get_set_same, hclamps.mpr ⟨c, hlt⟩]
    exact ⟨BitVec.eq_of_toNat_eq ((hget c).trans (min_eq_right hlt.le)), Bool.or_true _⟩

end Sys2Proof.Machine

/-! ### Block transform (spec/42_block_transform.md R160 to R164) -/

namespace Sys2Proof.Machine

open Sys2Proof

/-- The clamp on Q as lattice operations (spec/40_numerics.md R123). -/
theorem clampNum_eq_max_min (x : QNum) {lo hi : QNum} (hle : lo ≤ hi) : clampNum x lo hi = max lo (min x hi) := by
  rcases lt_or_ge x lo with hlo | hlo
  · rw [clampNum_of_lt _ hlo, max_eq_left ((min_le_left _ _).trans hlo.le)]
  · rcases lt_or_ge hi x with hhi | hhi
    · rw [clampNum_of_gt hle hhi, min_eq_right hhi.le, max_eq_right hle]
    · rw [clampNum_of_mem hlo hhi, min_eq_left hhi, max_eq_right hlo]

theorem clampDetail_eq_max_min (x : QNum) : clampDetail x = max (-(3/10)) (min x (3/10)) :=
  clampNum_eq_max_min x (by norm_num)

/-- A raw detail within the bounds, both of them included, is kept as it is. -/
theorem clampDetail_of_bounded {x : QNum} (h : detailBounded x) : clampDetail x = x :=
  clampNum_of_mem h.1 h.2

section blockCommands

variable {s : State}

theorem exec_btf (herr : s.status.err = false) : exec .btf s = .next (s.setCf (forwardBlock s.cs)) :=
  runCommand_one_ok herr (stageBtf_eq s)

theorem exec_bti (herr : s.status.err = false) : exec .bti s = .next (s.setCs (inverseBlock s.cf)) :=
  runCommand_one_ok herr (stageBti_eq s)

/-- BTF then BTI: the block is that of the coefficients of the samples before. -/
theorem execAll_btf_bti (herr : s.status.err = false) :
    execAll [.btf, .bti] s = .next ((s.setCf (forwardBlock s.cs)).setCs (inverseBlock (forwardBlock s.cs))) :=
  (execAll_cons (exec_btf herr) _).trans
    (execAll_cons (exec_bti (s := s.setCf (forwardBlock s.cs)) herr) _)

end blockCommands

/-- Settles O21: BTF writes the coefficients of the block, with the clamp written as lattice operations. -/
theorem btfTransformsBlock : Obligations.BtfTransformsBlock := by
  intro s herr
  refine ⟨by decide, ?_⟩
  rw [exec_btf herr, forwardBlock]
  simp only [clampDetail_eq_max_min]
  rfl

/-- Settles O22: BTI writes the block of the coefficients. -/
theorem btiReconstructsBlock : Obligations.BtiReconstructsBlock :=
  fun _ herr => ⟨by decide, exec_bti herr⟩

/-- The two transforms are inverse on luma when no clamp acts (spec/42_block_transform.md R164): the signs of
b, c and d at each position are the signs that position has in b, c and d. -/
theorem inverseBlock_forwardBlock_y {x : Quad Sample}
    (hb : detailBounded ((x.br.y + x.bl.y - x.tr.y - x.tl.y) / 4))
    (hc : detailBounded ((x.br.y - x.bl.y + x.tr.y - x.tl.y) / 4))
    (hd : detailBounded ((x.br.y - x.bl.y - x.tr.y + x.tl.y) / 4)) (k : Pos) :
    ((inverseBlock (forwardBlock x)).get k).y = (x.get k).y := by
  simp only [forwardBlock, clampDetail_of_bounded hb, clampDetail_of_bounded hc, clampDetail_of_bounded hd]
  cases k <;> simp only [inverseBlock, Quad.get] <;> ring

/-- The four samples that BTI makes share the chroma of the coefficients (spec/42_block_transform.md R162). -/
theorem inverseBlock_chroma (f : Coeffs) (k : Pos) :
    ((inverseBlock f).get k).pb = f.pb ∧ ((inverseBlock f).get k).pr = f.pr := by
  cases k <;> exact ⟨rfl, rfl⟩

/-- Settles O47: the transforms are inverse on luma, and each sample has the averaged chroma of BTF. -/
theorem blockTransformInverts : Obligations.BlockTransformInverts := fun s herr hb hc hd =>
  ⟨_, execAll_btf_bti herr, fun k =>
    ⟨inverseBlock_forwardBlock_y hb hc hd k, inverseBlock_chroma (forwardBlock s.cs) k⟩⟩

/-- The signs of b, c and d cancel in the sum over the positions (spec/42_block_transform.md R163 (a)). -/
theorem inverseBlock_mean (f : Coeffs) :
    ((inverseBlock f).tl.y + (inverseBlock f).tr.y + (inverseBlock f).bl.y + (inverseBlock f).br.y) / 4 = f.a := by
  simp only [inverseBlock]
  ring

/-- Each luma sample differs from a by b, c and d with signs (spec/42_block_transform.md R163 (b)). -/
theorem inverseBlock_y_dist (f : Coeffs) (k : Pos) :
    |((inverseBlock f).get k).y - f.a| ≤ |f.b| + |f.c| + |f.d| := by
  rw [abs_le]
  cases k <;> simp only [inverseBlock, Quad.get] <;> constructor <;>
    linarith [neg_abs_le f.b, neg_abs_le f.c, neg_abs_le f.d, le_abs_self f.b, le_abs_self f.c, le_abs_self f.d]

/-- The invariant of spec/10_state.md R36 bounds the distance of R163 (b). -/
theorem State.CoeffsBounded.sum_abs_le {s : State} (h : s.CoeffsBounded) :
    |s.cf.b| + |s.cf.c| + |s.cf.d| ≤ 9/10 := by
  obtain ⟨hb, hc, hd⟩ := h
  linarith [abs_le.mpr hb, abs_le.mpr hc, abs_le.mpr hd]

/-- Settles O48: the mean and the distance from it, which the bounds of the details make at most 9/10. -/
theorem btiLumaStaysNearMean : Obligations.BtiLumaStaysNearMean := by
  intro s herr hbounded
  have hsum := hbounded.sum_abs_le
  have hdist := inverseBlock_y_dist s.cf
  refine ⟨_, exec_bti herr, inverseBlock_mean s.cf, hdist, hsum, fun ha0 ha1 k => ?_⟩
  obtain ⟨hlo, hhi⟩ := abs_le.mp ((hdist k).trans hsum)
  rw [State.setCs_cs]
  constructor <;> linarith

end Sys2Proof.Machine

/-! ### Quantisation (spec/43_quantize.md R170 to R173) -/

namespace Sys2Proof.Machine

open Sys2Proof

/-- For `n` not negative, the values that round to at most `n` are those below the tie above `n`. -/
theorem rnd_le_iff {x : QNum} {n : Int} (hn : 0 ≤ n) : rnd x ≤ n ↔ x < n + 1/2 := by
  refine ⟨fun hle => ?_, fun hlt => rnd_le hlt hn⟩
  have hn : (0 : QNum) ≤ n := by exact_mod_cast hn
  rcases le_total 0 x with hx | hx
  · have hle : (rnd x : QNum) ≤ n := by exact_mod_cast hle
    linarith [(rnd_interval hx).2]
  · linarith

/-- For `n` not positive, the values that round to at least `n` are those above the tie below `n`. -/
theorem le_rnd_iff {x : QNum} {n : Int} (hn : n ≤ 0) : n ≤ rnd x ↔ n - 1/2 < x := by
  have hmirrored := rnd_le_iff (x := -x) (neg_nonneg.mpr hn)
  rwa [rnd_neg, neg_le_neg_iff, Int.cast_neg, neg_lt, neg_add, neg_neg, ← sub_eq_add_neg] at hmirrored

/-- The luma values whose quantised register fits its field of the packed word (spec/43_quantize.md R171 (d)). -/
theorem rnd_luma_fits_iff (a : QNum) :
    (0 ≤ rnd (a * 511) ∧ rnd (a * 511) ≤ 511) ↔ -(1/2) / 511 < a ∧ a < (511 + 1/2) / 511 := by
  rw [le_rnd_iff le_rfl, rnd_le_iff (by decide), div_lt_iff₀ (by norm_num), lt_div_iff₀ (by norm_num),
    Int.cast_zero, zero_sub, Int.cast_ofNat]

/-- A bounded detail is quantised to -15..15 (spec/43_quantize.md R171 (b)). -/
theorem rnd_detail_bounds {x : QNum} (h : detailBounded x) : -15 ≤ rnd (x * 50) ∧ rnd (x * 50) ≤ 15 := by
  obtain ⟨hlow, hhigh⟩ := h
  refine ⟨le_rnd ?_ (by decide), rnd_le ?_ (by decide)⟩ <;> push_cast <;> linarith

/-- The register of a bounded detail holds the rounded product. -/
theorem detailWord_toInt {x : QNum} (h : detailBounded x) :
    (BitVec.ofInt 32 (rnd (x * 50))).toInt = rnd (x * 50) := by
  have hbounds := rnd_detail_bounds h
  exact ofInt32_toInt (by omega) (by omega)

theorem detailWord_bounds {x : QNum} (h : detailBounded x) :
    -15 ≤ (BitVec.ofInt 32 (rnd (x * 50))).toInt ∧ (BitVec.ofInt 32 (rnd (x * 50))).toInt ≤ 15 := by
  rw [detailWord_toInt h]
  exact rnd_detail_bounds h

theorem chromaWord_bounds (t : ChromaTable) (x : QNum) :
    0 ≤ (chromaWord t x).toInt ∧ (chromaWord t x).toInt ≤ 15 := by
  rw [chromaWord_toInt]
  omega

/-- The check of QNT as comparisons (spec/43_quantize.md R170). -/
theorem lumaOverflows_eq_true_iff {f : Coeffs} :
    lumaOverflows f = true ↔ rnd (f.a * 511) < -2147483648 ∨ 2147483647 < rnd (f.a * 511) := by
  rw [lumaOverflows, decide_eq_true_iff]
  norm_num

theorem lumaOverflows_eq_false_iff {f : Coeffs} :
    lumaOverflows f = false ↔ -2147483648 ≤ rnd (f.a * 511) ∧ rnd (f.a * 511) ≤ 2147483647 := by
  rw [Bool.eq_false_iff, ne_eq, lumaOverflows_eq_true_iff, not_or, not_lt, not_lt]

/-- The register of luma holds the rounded product when QNT does not fault. -/
theorem quantised_a_toInt {t : ChromaTable} {f : Coeffs} (h : lumaOverflows f = false) :
    (quantised t f).a.toInt = rnd (f.a * 511) := by
  obtain ⟨hlow, hhigh⟩ := lumaOverflows_eq_false_iff.mp h
  exact ofInt32_toInt hlow hhigh

theorem badIndex_eq_false_iff {v : Word} : badIndex v = false ↔ 0 ≤ v.toInt ∧ v.toInt ≤ 15 := by
  rw [badIndex, decide_eq_false_iff_not, not_or, not_lt, not_lt]

section quantizerStages

variable {s : State}

theorem stageDqn_badPb (hpb : badIndex s.q.pb = true) : stageDqn s = .error ⟨.chromaIndexRange, 4⟩ := if_pos hpb

theorem stageDqn_badPr (hpb : badIndex s.q.pb = false) (hpr : badIndex s.q.pr = true) :
    stageDqn s = .error ⟨.chromaIndexRange, 5⟩ := by
  simp [stageDqn, hpb, hpr]

theorem stageDqn_of_indices (hpb : badIndex s.q.pb = false) (hpr : badIndex s.q.pr = false) :
    stageDqn s = .ok (s.setCf (dequantised s.table s.q)) := by
  simp [stageDqn, hpb, hpr]

theorem stagePack_error {i : BitVec 3} (h : firstUnfit s.q = some i) :
    stagePack s = .error ⟨.fieldOverflow, i⟩ := by
  simp [stagePack, h]

theorem stagePack_of_fits (h : firstUnfit s.q = none) : stagePack s = .ok (s.setW (packed s.q)) := by
  simp [stagePack, h]

end quantizerStages

section quantizerCommands

variable {s : State} (herr : s.status.err = false)
include herr

theorem exec_qnt_overflows (h : lumaOverflows s.cf = true) :
    exec .qnt s = .next (s.withFaultRecord 1 0x05 0x05 0) :=
  runCommand_one_error herr (stageQnt_error h)

theorem exec_qnt_quantises (h : lumaOverflows s.cf = false) :
    exec .qnt s = .next (s.setQ (quantised s.table s.cf)) :=
  runCommand_one_ok herr (stageQnt_of_fits h)

theorem exec_dqn_badPb (hpb : badIndex s.q.pb = true) :
    exec .dqn s = .next (s.withFaultRecord 5 0x06 0x06 4) :=
  runCommand_one_error herr (stageDqn_badPb hpb)

theorem exec_dqn_badPr (hpb : badIndex s.q.pb = false) (hpr : badIndex s.q.pr = true) :
    exec .dqn s = .next (s.withFaultRecord 5 0x06 0x06 5) :=
  runCommand_one_error herr (stageDqn_badPr hpb hpr)

theorem exec_dqn_dequantises (hpb : badIndex s.q.pb = false) (hpr : badIndex s.q.pr = false) :
    exec .dqn s = .next (s.setCf (dequantised s.table s.q)) :=
  runCommand_one_ok herr (stageDqn_of_indices hpb hpr)

theorem exec_pack_overflows {i : BitVec 3} (h : firstUnfit s.q = some i) :
    exec .pack s = .next (s.withFaultRecord 1 0x07 0x07 i) :=
  runCommand_one_error herr (stagePack_error h)

theorem exec_pack_packs (h : firstUnfit s.q = none) : exec .pack s = .next (s.setW (packed s.q)) :=
  runCommand_one_ok herr (stagePack_of_fits h)

end quantizerCommands

/-- Settles O23: the check of QNT is exact, and each of the six values fits its register. -/
theorem qntQuantisesCoefficients : Obligations.QntQuantisesCoefficients := by
  intro s herr ⟨hb, hc, hd⟩
  refine ⟨by decide, fun hover => exec_qnt_overflows herr (lumaOverflows_eq_true_iff.mpr hover),
    fun hlow hhigh => ?_⟩
  have hfits := lumaOverflows_eq_false_iff.mpr ⟨hlow, hhigh⟩
  exact ⟨_, exec_qnt_quantises herr hfits, quantised_a_toInt hfits, detailWord_toInt hb, detailWord_toInt hc,
    detailWord_toInt hd, chromaWord_toInt _ _, chromaWord_toInt _ _⟩

/-- Settles O24: the two index checks in their order, then the clamps written as lattice operations. -/
theorem dqnDequantisesFields : Obligations.DqnDequantisesFields := by
  intro s herr
  refine ⟨by decide, fun hpb => exec_dqn_badPb herr (decide_eq_true hpb), fun hlow hhigh hpr =>
    exec_dqn_badPr herr (badIndex_eq_false_iff.mpr ⟨hlow, hhigh⟩) (decide_eq_true hpr), fun i j hi hj => ?_⟩
  have hpb : badIndex s.q.pb = false := badIndex_eq_false_iff.mpr (by omega)
  have hpr : badIndex s.q.pr = false := badIndex_eq_false_iff.mpr (by omega)
  rw [exec_dqn_dequantises herr hpb hpr, dequantised, indexOf_eq hi, indexOf_eq hj,
    clampNum_eq_max_min _ zero_le_one]
  simp only [clampDetail_eq_max_min]
  rfl

/-- The checks of PACK when only field a can fail (spec/44_pack.md R180). -/
theorem firstUnfit_of_fits_except_a {q : Quant} (hb : -15 ≤ q.b.toInt ∧ q.b.toInt ≤ 15)
    (hc : -15 ≤ q.c.toInt ∧ q.c.toInt ≤ 15) (hd : -15 ≤ q.d.toInt ∧ q.d.toInt ≤ 15)
    (hpb : 0 ≤ q.pb.toInt ∧ q.pb.toInt ≤ 15) (hpr : 0 ≤ q.pr.toInt ∧ q.pr.toInt ≤ 15) :
    firstUnfit q = if 0 ≤ q.a.toInt ∧ q.a.toInt ≤ 511 then none else some 0 := by
  rw [firstUnfit_eq]
  by_cases ha : 0 ≤ q.a.toInt ∧ q.a.toInt ≤ 511
  · rw [if_pos ha, if_neg (by omega), if_neg (by omega), if_neg (by omega), if_neg (by omega),
      if_neg (by omega), if_neg (by omega)]
  · rw [if_neg ha, if_pos (by omega)]

/-- After QNT only luma can miss its field of the packed word (spec/43_quantize.md R171). -/
theorem firstUnfit_quantised {s : State} (hbounded : s.CoeffsBounded) (hfits : lumaOverflows s.cf = false) :
    firstUnfit (quantised s.table s.cf) =
      if -(1/2) / 511 < s.cf.a ∧ s.cf.a < (511 + 1/2) / 511 then none else some 0 := by
  obtain ⟨hb, hc, hd⟩ := hbounded
  have hluma : firstUnfit (quantised s.table s.cf) = if 0 ≤ (quantised s.table s.cf).a.toInt ∧
      (quantised s.table s.cf).a.toInt ≤ 511 then none else some 0 :=
    firstUnfit_of_fits_except_a (detailWord_bounds hb) (detailWord_bounds hc) (detailWord_bounds hd)
      (chromaWord_bounds _ _) (chromaWord_bounds _ _)
  rw [hluma, quantised_a_toInt hfits]
  exact if_congr (rnd_luma_fits_iff _) rfl rfl

/-- Settles O49: b, c, d and the chroma fit by their ranges, so PACK after QNT looks at luma only. -/
theorem quantisedFieldsFitExceptA : Obligations.QuantisedFieldsFitExceptA := by
  intro s herr hbounded hlow hhigh
  have hfits := lumaOverflows_eq_false_iff.mpr ⟨hlow, hhigh⟩
  have hunfit := firstUnfit_quantised hbounded hfits
  obtain ⟨hb, hc, hd⟩ := hbounded
  refine ⟨_, exec_qnt_quantises herr hfits, herr, ?_, ?_, fun ha0 ha1 => ?_, ?_⟩
  · rintro f (rfl | rfl | rfl)
    exacts [detailWord_bounds hb, detailWord_bounds hc, detailWord_bounds hd]
  · rintro f (rfl | rfl) <;> exact chromaWord_bounds _ _
  · rw [Quant.int, Quant.get, State.setQ_q, quantised_a_toInt hfits]
    exact (rnd_luma_fits_iff _).mpr (by constructor <;> linarith)
  · by_cases hrange : -(1/2) / 511 < s.cf.a ∧ s.cf.a < (511 + 1/2) / 511
    · rw [if_pos hrange] at hunfit
      exact ⟨_, exec_pack_packs (s := s.setQ (quantised s.table s.cf)) herr hunfit, fun _ => herr,
        fun h => absurd hrange h⟩
    · rw [if_neg hrange] at hunfit
      exact ⟨_, exec_pack_overflows (s := s.setQ (quantised s.table s.cf)) herr hunfit,
        fun h => absurd h hrange, fun _ => rfl⟩

/-- No clamp acts on luma in its field, so the product is the integer of the register again. -/
theorem dequantisedLuma_mul {n : Int} (h : 0 ≤ n ∧ n ≤ 511) :
    clampNum ((n : QNum) / 511) 0 1 * 511 = n := by
  have hlow : (0 : QNum) ≤ n := by exact_mod_cast h.1
  have hhigh : (n : QNum) ≤ 511 := by exact_mod_cast h.2
  rw [clampNum_of_mem (by positivity) (div_le_one_of_le₀ hhigh (by norm_num)), div_mul_cancel₀ _ (by norm_num)]

/-- No clamp acts on a detail in -15..15, since 15/50 is the bound of the clamp. -/
theorem dequantisedDetail_mul {n : Int} (h : -15 ≤ n ∧ n ≤ 15) : clampDetail ((n : QNum) / 50) * 50 = n := by
  have hlow : (-15 : QNum) ≤ n := by exact_mod_cast h.1
  have hhigh : (n : QNum) ≤ 15 := by exact_mod_cast h.2
  rw [clampDetail_of_bounded (by constructor <;> linarith), div_mul_cancel₀ _ (by norm_num)]

/-- The index of a table value is the index it was read at (spec/40_numerics.md R130 (a)). -/
theorem chromaWord_cqValue (t : ChromaTable) {v : Word} (h : 0 ≤ v.toInt ∧ v.toInt ≤ 15) :
    chromaWord t (cqValue t (indexOf v)) = v := by
  have hindex : v.toInt = (⟨v.toInt.toNat, by omega⟩ : Fin 16).val := by simp only; omega
  refine BitVec.eq_of_toInt_eq ?_
  rw [chromaWord_toInt, cqIndex_cqValue, indexOf_eq hindex, ← hindex]

section roundTrip

variable {q : Quant} (t : ChromaTable) (ha : 0 ≤ q.a.toInt ∧ q.a.toInt ≤ 511)
include ha

theorem lumaOverflows_dequantised : lumaOverflows (dequantised t q) = false := by
  rw [lumaOverflows_eq_false_iff, dequantised, dequantisedLuma_mul ha, rnd_intCast]
  omega

/-- The products that QNT rounds are the integers that DQN read (spec/43_quantize.md R173 (b)). -/
theorem quantised_dequantised (hb : -15 ≤ q.b.toInt ∧ q.b.toInt ≤ 15) (hc : -15 ≤ q.c.toInt ∧ q.c.toInt ≤ 15)
    (hd : -15 ≤ q.d.toInt ∧ q.d.toInt ≤ 15) (hpb : 0 ≤ q.pb.toInt ∧ q.pb.toInt ≤ 15)
    (hpr : 0 ≤ q.pr.toInt ∧ q.pr.toInt ≤ 15) : quantised t (dequantised t q) = q := by
  simp only [quantised, dequantised, dequantisedLuma_mul ha, dequantisedDetail_mul hb, dequantisedDetail_mul hc,
    dequantisedDetail_mul hd, rnd_intCast, BitVec.ofInt_toInt, chromaWord_cqValue t hpb, chromaWord_cqValue t hpr]

end roundTrip

/-- Settles O50: what DQN writes meets the ranges by its clamps, and quantising it gives Q back. -/
theorem quantisedBlockRoundTrips : Obligations.QuantisedBlockRoundTrips := by
  intro s herr ha0 ha511 hdetail hchroma
  have hpb := hchroma .pb (.inl rfl)
  have hpr := hchroma .pr (.inr rfl)
  obtain ⟨hlow, hhigh⟩ := clampNum_bounds ((s.q.a.toInt : QNum) / 511) zero_le_one
  exact ⟨_, exec_dqn_dequantises herr (badIndex_eq_false_iff.mpr hpb) (badIndex_eq_false_iff.mpr hpr),
    hlow, hhigh, ⟨clampDetail_bounds _, clampDetail_bounds _, clampDetail_bounds _⟩,
    _, exec_qnt_quantises (s := s.setCf _) herr (lumaOverflows_dequantised s.table ⟨ha0, ha511⟩), herr,
    quantised_dequantised s.table ⟨ha0, ha511⟩ (hdetail .b (.inl rfl)) (hdetail .c (.inr (.inl rfl)))
      (hdetail .d (.inr (.inr rfl))) hpb hpr⟩

end Sys2Proof.Machine

/-! ### The packed word (spec/44_pack.md R180 to R183) -/

namespace Sys2Proof.Machine

open Sys2Proof

/-- An insert into the word 0 places the value at its field. -/
theorem newu_zero (n lsb : Nat) (v : Int) : newu 0 n lsb v = BitVec.ofInt 32 (v * 2 ^ lsb) := by
  simp [newu]

/-- The lowest m bits of a multiple of 2^m are clear. -/
theorem getLsbD_ofInt_mul_two_pow (x : Int) {m i : Nat} (hi : i < m) :
    (BitVec.ofInt 32 (x * 2 ^ m)).getLsbD i = false := by
  have hpow : BitVec.ofInt 32 (2 ^ m) = BitVec.twoPow 32 m := by
    have hcast : ((2 ^ m : Nat) : Int) = 2 ^ m := by push_cast; rfl
    rw [← hcast, BitVec.ofInt_natCast]
    exact BitVec.eq_of_toNat_eq (by rw [BitVec.toNat_ofNat, BitVec.toNat_twoPow])
  rw [BitVec.ofInt_mul, hpow, ← BitVec.shiftLeft_eq_mul_twoPow, BitVec.getLsbD_shiftLeft]
  simp [hi]

/-- Inserting just below the lowest bit in use appends the value as the next digit of the word. -/
theorem newu_append (n lsb : Nat) (x : Int) {v : Int} (h0 : 0 ≤ v) (h1 : v < 2 ^ n) :
    newu (BitVec.ofInt 32 (x * 2 ^ (lsb + n))) n lsb v = BitVec.ofInt 32 ((x * 2 ^ n + v) * 2 ^ lsb) := by
  have hclear : ∀ i, lsb ≤ i ∧ i < lsb + n → (BitVec.ofInt 32 (x * 2 ^ (lsb + n))).getLsbD i = false :=
    fun i hi => getLsbD_ofInt_mul_two_pow x hi.2
  have hor : newu (BitVec.ofInt 32 (x * 2 ^ (lsb + n))) n lsb v =
      BitVec.ofInt 32 (x * 2 ^ (lsb + n)) ||| newu 0 n lsb v := by
    refine BitVec.eq_of_getLsbD_eq fun i hi => ?_
    rw [BitVec.getLsbD_or, newu_getLsbD _ h0 h1 hi, newu_getLsbD _ h0 h1 hi]
    split_ifs with hfield
    · rw [hclear i hfield, Bool.false_or]
    · simp
  have hdisjoint : BitVec.ofInt 32 (x * 2 ^ (lsb + n)) &&& newu 0 n lsb v = 0#32 := by
    refine BitVec.eq_of_getLsbD_eq fun i hi => ?_
    rw [BitVec.getLsbD_and, newu_getLsbD _ h0 h1 hi]
    split_ifs with hfield
    · rw [hclear i hfield, Bool.false_and, BitVec.getLsbD_zero]
    · simp
  rw [hor, ← BitVec.add_eq_or_of_and_eq_zero _ _ hdisjoint, newu_zero, ← BitVec.ofInt_add]
  congr 1
  ring

/-- The six fields of Q fit their fields of the packed word (spec/44_pack.md R180). -/
structure Quant.Fits (q : Quant) : Prop where
  a : 0 ≤ q.a.toInt ∧ q.a.toInt < 512
  b : -16 ≤ q.b.toInt ∧ q.b.toInt < 16
  c : -16 ≤ q.c.toInt ∧ q.c.toInt < 16
  d : -16 ≤ q.d.toInt ∧ q.d.toInt < 16
  pb : 0 ≤ q.pb.toInt ∧ q.pb.toInt < 16
  pr : 0 ≤ q.pr.toInt ∧ q.pr.toInt < 16

section fits

variable {q : Quant} (h : q.Fits)
include h

/-- The six checks of PACK pass on fields that fit. -/
theorem Quant.Fits.firstUnfit_eq_none : firstUnfit q = none := by
  rw [firstUnfit_eq, if_neg (not_not.mpr h.a), if_neg (not_not.mpr h.b), if_neg (not_not.mpr h.c),
    if_neg (not_not.mpr h.d), if_neg (not_not.mpr h.pb), if_neg (not_not.mpr h.pr)]

/-- The closed form of spec/44_pack.md R180: each insert appends the next field below those before it. -/
theorem Quant.Fits.packed_eq : packed q = BitVec.ofInt 32 (q.a.toInt * 2 ^ 23 + q.b.toInt % 32 * 2 ^ 18 +
    q.c.toInt % 32 * 2 ^ 13 + q.d.toInt % 32 * 2 ^ 8 + q.pb.toInt * 2 ^ 4 + q.pr.toInt) := by
  obtain ⟨_, _, _, _, hpb, hpr⟩ := h
  simp only [packed, news_eq_newu]
  rw [newu_zero, newu_append 5 18 _ (by omega) (by omega), newu_append 5 13 _ (by omega) (by omega),
    newu_append 5 8 _ (by omega) (by omega), newu_append 4 4 _ (by omega) (by omega),
    newu_append 4 0 _ (by omega) (by omega)]
  congr 1
  omega

/-- The packed word as a number. -/
theorem Quant.Fits.packed_toNat : ((packed q).toNat : Int) = q.a.toInt * 2 ^ 23 + q.b.toInt % 32 * 2 ^ 18 +
    q.c.toInt % 32 * 2 ^ 13 + q.d.toInt % 32 * 2 ^ 8 + q.pb.toInt * 2 ^ 4 + q.pr.toInt := by
  rw [h.packed_eq, BitVec.toNat_ofInt]
  obtain ⟨ha, _, _, _, hpb, hpr⟩ := h
  omega

end fits

section unpacked

variable (w : Word)

/-- An unsigned extract is the bit range of the word. -/
theorem getu_eq_extractLsb' (n lsb : Nat) : getu w n lsb = (w.extractLsb' lsb n).toNat := by
  rw [getu, BitVec.extractLsb'_toNat, Nat.shiftRight_eq_div_pow]

/-- A signed extract is the signed value of the bit range of the word. -/
theorem gets_eq_extractLsb' (n lsb : Nat) : gets w (n + 1) lsb = (w.extractLsb' lsb (n + 1)).toInt := by
  rw [gets, getu_eq_extractLsb', sextN, BitVec.toInt_eq_toNat_cond, Nat.add_sub_cancel, Nat.pow_succ']
  push_cast [pow_succ']
  exact if_congr (by omega) rfl rfl

/-- A five-bit signed extract is in the range of its field, and its residue is the unsigned extract. -/
theorem gets_five (lsb : Nat) :
    -16 ≤ gets w 5 lsb ∧ gets w 5 lsb < 16 ∧ gets w 5 lsb % 32 = getu w 5 lsb := by
  have hlt := getu_lt w 5 lsb
  rw [gets, sextN]
  split <;> omega

/-- The register of an unsigned extract narrower than 32 bits holds the extract. -/
theorem getuWord_toInt {n lsb : Nat} (hn : n < 32) : (BitVec.ofNat 32 (getu w n lsb)).toInt = getu w n lsb := by
  have hlt : getu w n lsb < 2 ^ 31 := (getu_lt w n lsb).trans_le (Nat.pow_le_pow_right two_pos (by omega))
  rw [← BitVec.ofInt_natCast, ofInt32_toInt (by omega) (by omega)]

/-- The register of a five-bit signed extract holds the extract. -/
theorem getsWord_toInt (lsb : Nat) : (BitVec.ofInt 32 (gets w 5 lsb)).toInt = gets w 5 lsb := by
  obtain ⟨hlow, hhigh, -⟩ := gets_five w lsb
  exact ofInt32_toInt (by omega) (by omega)

theorem unpacked_a_toInt : (unpacked w).a.toInt = getu w 9 23 := getuWord_toInt w (by decide)
theorem unpacked_b_toInt : (unpacked w).b.toInt = gets w 5 18 := getsWord_toInt w 18
theorem unpacked_c_toInt : (unpacked w).c.toInt = gets w 5 13 := getsWord_toInt w 13
theorem unpacked_d_toInt : (unpacked w).d.toInt = gets w 5 8 := getsWord_toInt w 8
theorem unpacked_pb_toInt : (unpacked w).pb.toInt = getu w 4 4 := getuWord_toInt w (by decide)
theorem unpacked_pr_toInt : (unpacked w).pr.toInt = getu w 4 0 := getuWord_toInt w (by decide)

/-- What UNPK writes fits, whatever the word. -/
theorem unpacked_fits : (unpacked w).Fits := by
  obtain ⟨hb0, hb1, -⟩ := gets_five w 18
  obtain ⟨hc0, hc1, -⟩ := gets_five w 13
  obtain ⟨hd0, hd1, -⟩ := gets_five w 8
  have ha := getu_lt w 9 23
  have hpb := getu_lt w 4 4
  have hpr := getu_lt w 4 0
  exact ⟨by rw [unpacked_a_toInt]; omega, by rw [unpacked_b_toInt]; exact ⟨hb0, hb1⟩,
    by rw [unpacked_c_toInt]; exact ⟨hc0, hc1⟩, by rw [unpacked_d_toInt]; exact ⟨hd0, hd1⟩,
    by rw [unpacked_pb_toInt]; omega, by rw [unpacked_pr_toInt]; omega⟩

/-- The six fields are the digits of the word (spec/30_encoding.md R100). -/
theorem toNat_eq_sum_getu : w.toNat = getu w 9 23 * 2 ^ 23 + getu w 5 18 * 2 ^ 18 + getu w 5 13 * 2 ^ 13 +
    getu w 5 8 * 2 ^ 8 + getu w 4 4 * 2 ^ 4 + getu w 4 0 := by
  have hword := w.isLt
  simp only [getu]
  omega

/-- Packing what was unpacked puts the digits of the word together again (spec/44_pack.md R183 (b)). -/
theorem packed_unpacked : packed (unpacked w) = w := by
  obtain ⟨-, -, hb⟩ := gets_five w 18
  obtain ⟨-, -, hc⟩ := gets_five w 13
  obtain ⟨-, -, hd⟩ := gets_five w 8
  have hpacked := (unpacked_fits w).packed_toNat
  rw [unpacked_a_toInt, unpacked_b_toInt, unpacked_c_toInt, unpacked_d_toInt, unpacked_pb_toInt,
    unpacked_pr_toInt, hb, hc, hd] at hpacked
  have hword := toNat_eq_sum_getu w
  exact BitVec.eq_of_toNat_eq (by omega)

end unpacked

/-- The signed extract of a field that holds the residue of a fitting value is the value. -/
theorem gets_of_getu {w : Word} {lsb : Nat} {v : Int} (hfits : -16 ≤ v ∧ v < 16)
    (h : (getu w 5 lsb : Int) = v % 32) : gets w 5 lsb = v := by
  obtain ⟨hlow, hhigh, hmod⟩ := gets_five w lsb
  omega

/-- Register sets that hold the same six integers are the same. -/
theorem Quant.ext_toInt {p q : Quant} (ha : p.a.toInt = q.a.toInt) (hb : p.b.toInt = q.b.toInt)
    (hc : p.c.toInt = q.c.toInt) (hd : p.d.toInt = q.d.toInt) (hpb : p.pb.toInt = q.pb.toInt)
    (hpr : p.pr.toInt = q.pr.toInt) : p = q := by
  cases p
  cases q
  rw [Quant.mk.injEq]
  exact ⟨BitVec.eq_of_toInt_eq ha, BitVec.eq_of_toInt_eq hb, BitVec.eq_of_toInt_eq hc, BitVec.eq_of_toInt_eq hd,
    BitVec.eq_of_toInt_eq hpb, BitVec.eq_of_toInt_eq hpr⟩

/-- The digits of the packed word are the fields, b, c, d modulo 32. -/
theorem Quant.Fits.getu_packed {q : Quant} (h : q.Fits) :
    (getu (packed q) 9 23 : Int) = q.a.toInt ∧ (getu (packed q) 5 18 : Int) = q.b.toInt % 32 ∧
    (getu (packed q) 5 13 : Int) = q.c.toInt % 32 ∧ (getu (packed q) 5 8 : Int) = q.d.toInt % 32 ∧
    (getu (packed q) 4 4 : Int) = q.pb.toInt ∧ (getu (packed q) 4 0 : Int) = q.pr.toInt := by
  have hpacked := h.packed_toNat
  obtain ⟨ha, -, -, -, hpb, hpr⟩ := h
  simp only [getu]
  omega

/-- Unpacking what was packed reads each field back (spec/44_pack.md R183 (a)). -/
theorem Quant.Fits.unpacked_packed {q : Quant} (h : q.Fits) : unpacked (packed q) = q := by
  obtain ⟨ha, hb, hc, hd, hpb, hpr⟩ := h.getu_packed
  exact Quant.ext_toInt ((unpacked_a_toInt _).trans ha) ((unpacked_b_toInt _).trans (gets_of_getu h.b hb))
    ((unpacked_c_toInt _).trans (gets_of_getu h.c hc)) ((unpacked_d_toInt _).trans (gets_of_getu h.d hd))
    ((unpacked_pb_toInt _).trans hpb) ((unpacked_pr_toInt _).trans hpr)

theorem exec_unpk {s : State} (herr : s.status.err = false) : exec .unpk s = .next (s.setQ (unpacked s.w)) :=
  runCommand_one_ok herr (stageUnpk_eq s)

/-- Settles O25: the six checks in their order, then the closed form of the word. -/
theorem packBuildsWordOrFaults : Obligations.PackBuildsWordOrFaults := by
  intro s herr
  refine ⟨by decide, ?_⟩
  have hunfit := firstUnfit_eq s.q
  dsimp only
  split_ifs at hunfit ⊢ with ha hb hc hd hpb hpr
  · rw [exec_pack_packs herr hunfit, Quant.Fits.packed_eq ⟨ha, hb, hc, hd, hpb, hpr⟩, State.setW]
  all_goals exact exec_pack_overflows herr hunfit

/-- Settles O26: each register holds its extract, which is a bit range of W. -/
theorem unpkExtractsFields : Obligations.UnpkExtractsFields := by
  intro s herr
  refine ⟨by decide, _, exec_unpk herr, ?_⟩
  rw [unpacked_a_toInt, unpacked_b_toInt, unpacked_c_toInt, unpacked_d_toInt, unpacked_pb_toInt,
    unpacked_pr_toInt]
  simp only [getu_eq_extractLsb', gets_eq_extractLsb', and_self]

/-- Settles O51: PACK does not fault on fitting fields, and UNPK reads them from the word it writes. -/
theorem packThenUnpkKeepsFields : Obligations.PackThenUnpkKeepsFields := by
  intro s herr ha0 ha511 hdetail hchroma
  have hdet (f) (hf) := (hdetail f hf).imp_right Int.lt_add_one_of_le
  have hchr (f) (hf) := (hchroma f hf).imp_right Int.lt_add_one_of_le
  have hfits : s.q.Fits := ⟨⟨ha0, Int.lt_add_one_of_le ha511⟩, hdet .b (.inl rfl), hdet .c (.inr (.inl rfl)),
    hdet .d (.inr (.inr rfl)), hchr .pb (.inl rfl), hchr .pr (.inr rfl)⟩
  have hpack := exec_pack_packs herr hfits.firstUnfit_eq_none
  have hunpk := exec_unpk (s := s.setW (packed s.q)) herr
  exact ⟨_, (execAll_cons hpack _).trans (execAll_cons hunpk _), herr, hfits.unpacked_packed⟩

/-- Settles O52: what UNPK writes fits, so PACK does not fault, and it writes the word UNPK read. -/
theorem unpkThenPackKeepsWord : Obligations.UnpkThenPackKeepsWord := by
  intro s herr
  have hunpk := exec_unpk herr
  have hpack := exec_pack_packs (s := s.setQ (unpacked s.w)) herr (unpacked_fits s.w).firstUnfit_eq_none
  exact ⟨_, (execAll_cons hunpk _).trans (execAll_cons hpack _), herr, packed_unpacked s.w⟩

end Sys2Proof.Machine

/-! ### The word on the streams (spec/45_serialize.md R190 to R193) -/

namespace Sys2Proof.Machine

open Sys2Proof

/-- Appending a byte below a bit vector shifts it up by one base-256 digit. -/
theorem append_byte_toNat {n : Nat} (x : BitVec n) (b : Byte) : (x ++ b).toNat = x.toNat * 2 ^ 8 + b.toNat := by
  rw [BitVec.toNat_append, ← Nat.shiftLeft_add_eq_or_of_lt b.isLt, Nat.shiftLeft_eq]

/-- The four bytes are the base-256 digits of their word, the first the highest. -/
theorem wordOfBytes_toNat (b0 b1 b2 b3 : Byte) :
    (wordOfBytes b0 b1 b2 b3).toNat =
      b0.toNat * 2 ^ 24 + b1.toNat * 2 ^ 16 + b2.toNat * 2 ^ 8 + b3.toNat := by
  rw [wordOfBytes, append_byte_toNat, append_byte_toNat, append_byte_toNat]
  ring

/-- The bytes of a word, the most significant first, make the word again. -/
theorem wordOfBytes_extractLsb' (w : Word) :
    wordOfBytes (w.extractLsb' 24 8) (w.extractLsb' 16 8) (w.extractLsb' 8 8) (w.extractLsb' 0 8) = w := by
  have hword := w.isLt
  refine BitVec.eq_of_toNat_eq ?_
  simp only [wordOfBytes_toNat, BitVec.extractLsb'_toNat]
  omega

/-- The bytes of the word of four bytes are the four bytes. -/
theorem extractLsb'_wordOfBytes (b0 b1 b2 b3 : Byte) :
    (wordOfBytes b0 b1 b2 b3).extractLsb' 24 8 = b0 ∧ (wordOfBytes b0 b1 b2 b3).extractLsb' 16 8 = b1 ∧
    (wordOfBytes b0 b1 b2 b3).extractLsb' 8 8 = b2 ∧ (wordOfBytes b0 b1 b2 b3).extractLsb' 0 8 = b3 := by
  simp only [← BitVec.toNat_inj, BitVec.extractLsb'_toNat, wordOfBytes_toNat]
  have h0 := b0.isLt
  have h1 := b1.isLt
  have h2 := b2.isLt
  have h3 := b3.isLt
  omega

theorem iPop4_of_length_lt {bs : List Byte} (h : bs.length < 4) : iPop4 bs = none :=
  match bs, h with
  | [], _ | [_], _ | [_, _], _ | [_, _, _], _ => rfl

theorem stageDes_underrun {s : State} (h : s.ififo.length < 4) : stageDes s = .error ⟨.streamUnderrun, 0⟩ := by
  rw [stageDes, iPop4_of_length_lt h]

theorem stageDes_takes {s : State} {b0 b1 b2 b3 : Byte} {rest : List Byte}
    (h : s.ififo = b0 :: b1 :: b2 :: b3 :: rest) :
    stageDes s = .ok ((s.setIfifo rest).setW (wordOfBytes b0 b1 b2 b3)) := by
  rw [stageDes, h, iPop4]

section streamCommands

variable {s : State} (herr : s.status.err = false)
include herr

theorem exec_ser : exec .ser s = .next (s.oPush (s.w.extractLsb' 24 8) (s.w.extractLsb' 16 8)
    (s.w.extractLsb' 8 8) (s.w.extractLsb' 0 8)) :=
  runCommand_one_ok herr rfl

theorem exec_des_underrun (h : s.ififo.length < 4) :
    exec .des s = .next (s.withFaultRecord 4 0x0A 0x0A 0) :=
  runCommand_one_error herr (stageDes_underrun h)

theorem exec_des_takes {b0 b1 b2 b3 : Byte} {rest : List Byte} (h : s.ififo = b0 :: b1 :: b2 :: b3 :: rest) :
    exec .des s = .next ((s.setIfifo rest).setW (wordOfBytes b0 b1 b2 b3)) :=
  runCommand_one_ok herr (stageDes_takes h)

/-- DES on an input stream that was empty and was fed one word. -/
theorem exec_des_fed (b0 b1 b2 b3 : Byte) :
    exec .des { s with ififo := [b0, b1, b2, b3] } = .next ((s.setIfifo []).setW (wordOfBytes b0 b1 b2 b3)) :=
  exec_des_takes (s := s.setIfifo [b0, b1, b2, b3]) herr rfl

end streamCommands

/-- Settles O28: the two cases of the input stream's length; the word is the number its bytes are the digits
of. -/
theorem desTakesWordBigEndian : Obligations.DesTakesWordBigEndian := by
  intro s herr
  refine ⟨by decide, exec_des_underrun herr, fun b0 b1 b2 b3 rest hififo => ?_⟩
  rw [exec_des_takes herr hififo, ← wordOfBytes_toNat, BitVec.ofNat_toNat, BitVec.setWidth_eq]
  rfl

/-- Settles O53: the word of the bytes of a word is the word, and the bytes of the word of four bytes are the
bytes. -/
theorem serialisedWordRoundTrips : Obligations.SerialisedWordRoundTrips := by
  intro s u hs hu
  constructor
  · exact ⟨_, _, _, exec_ser hs, rfl, rfl, exec_des_fed hu _ _ _ _, wordOfBytes_extractLsb' s.w, rfl⟩
  · intro b0 b1 b2 b3
    have hser := exec_ser (s := (u.setIfifo []).setW (wordOfBytes b0 b1 b2 b3)) hu
    refine ⟨_, (execAll_cons (exec_des_fed hu b0 b1 b2 b3) _).trans (execAll_cons hser _), rfl, ?_⟩
    obtain ⟨h0, h1, h2, h3⟩ := extractLsb'_wordOfBytes b0 b1 b2 b3
    rw [State.oPush_ofifo, State.setW_w, h0, h1, h2, h3, State.setW_ofifo, State.setIfifo_ofifo]

/-- Settles O27: the push of SER, on a running core. -/
theorem serAppendsWordBigEndian : Obligations.SerAppendsWordBigEndian := fun _ herr =>
  ⟨by decide, exec_ser herr⟩

end Sys2Proof.Machine

/-! ### Composite and system operations (spec/46_composite_system.md R200 to R208) -/

namespace Sys2Proof.Machine

open Sys2Proof

/-- Settles O18: NOP is the command of no stages, which ends where it began whether or not it runs. -/
theorem nopChangesNothing : Obligations.NopChangesNothing := by
  refine ⟨by decide, fun s => ?_⟩
  cases herr : s.status.err with
  | true => exact runCommand_aborted _ _ _ herr
  | false => exact runCommand_running _ _ _ herr

/-- A channel of 16 bits over a DEN that is not 0. -/
theorem normalise_le {den : Half} (v : Half) (hden : den ≠ 0) : normalise v den ≤ 65535 := by
  have hpos : (1 : QNum) ≤ den.toNat := by
    exact_mod_cast Nat.one_le_iff_ne_zero.mpr (by simpa [← BitVec.toNat_inj] using hden)
  have hv : (v.toNat : QNum) ≤ 65535 := by exact_mod_cast Nat.le_of_lt_succ v.isLt
  exact (div_le_self (Nat.cast_nonneg _) hpos).trans hv

/-- Luma is a weighted mean of the three channels, so it has their bounds (spec/41_color_convert.md R151 (b)). -/
theorem forwardSample_y_bounds {p : Pixel} {den : Half} {m : QNum} (h : ∀ c, normalise (p.get c) den ≤ m) :
    0 ≤ (forwardSample p den).y ∧ (forwardSample p den).y ≤ m := by
  have hr : normalise p.r den ≤ m := h .r
  have hg : normalise p.g den ≤ m := h .g
  have hb : normalise p.b den ≤ m := h .b
  have hr0 := normalise_nonneg p.r den
  have hg0 := normalise_nonneg p.g den
  have hb0 := normalise_nonneg p.b den
  simp only [forwardSample]
  constructor <;> linarith

/-- CF.a is the mean luma of the block, so it has the bounds of the channels (spec/42_block_transform.md R160). -/
theorem forwardBlock_a_bounds {px : Quad Pixel} {den : Half} {m : QNum}
    (h : ∀ k c, normalise ((px.get k).get c) den ≤ m) :
    0 ≤ (forwardBlock (blockSamples px den)).a ∧ (forwardBlock (blockSamples px den)).a ≤ m := by
  have htl := forwardSample_y_bounds (h .tl)
  have htr := forwardSample_y_bounds (h .tr)
  have hbl := forwardSample_y_bounds (h .bl)
  have hbr := forwardSample_y_bounds (h .br)
  simp only [Quad.get] at htl htr hbl hbr
  simp only [forwardBlock, blockSamples]
  constructor <;> linarith

/-- QNT never faults in ENCB: luma of 16-bit channels times 511 is far inside 32 bits. -/
theorem lumaOverflows_block (px : Quad Pixel) {den : Half} (hden : den ≠ 0) :
    lumaOverflows (forwardBlock (blockSamples px den)) = false := by
  obtain ⟨hlow, hhigh⟩ := forwardBlock_a_bounds (px := px) fun k c => normalise_le ((px.get k).get c) hden
  rw [lumaOverflows_eq_false_iff]
  exact ⟨le_rnd (by push_cast; linarith) (by decide), rnd_le (by push_cast; linarith) (by decide)⟩

/-- PACK in ENCB looks at luma only: BTF clamps the details, and QNT writes indices of the table. -/
theorem firstUnfit_block (s : State) (hden : s.den ≠ 0) :
    firstUnfit (quantised s.table (forwardBlock (blockSamples s.px s.den))) =
      if 0 ≤ rnd ((forwardBlock (blockSamples s.px s.den)).a * 511) ∧
        rnd ((forwardBlock (blockSamples s.px s.den)).a * 511) ≤ 511 then none else some 0 :=
  (firstUnfit_quantised (s := s.setCf (forwardBlock (blockSamples s.px s.den)))
    ⟨clampDetail_bounds _, clampDetail_bounds _, clampDetail_bounds _⟩ (lumaOverflows_block s.px hden)).trans
    (if_congr (rnd_luma_fits_iff _).symm rfl rfl)

/-- What the stages of ENCB up to QNT leave (spec/46_composite_system.md R203). -/
def State.quantiseBlock (s : State) : State :=
  let cs := blockSamples s.px s.den
  let cf := forwardBlock cs
  ((s.setCs cs).setCf cf).setQ (quantised s.table cf)

section encb

variable {s : State} (herr : s.status.err = false)
include herr

theorem exec_encb_badDenominator (hden : s.den = 0) :
    exec .encb s = .next (s.withFaultRecord 2 0x10 0x01 0) :=
  (runCommand_running _ _ _ herr).trans
    (congrArg _ (runStages_error _ _ _ _ _ (stageCscf_error .tl hden)))

/-- With DEN not 0 the stages of ENCB up to QNT complete. -/
theorem exec_encb_quantises (hden : s.den ≠ 0) :
    exec .encb s = .next (runStages 0x10 [(0x07, stagePack), (0x09, stageSer)] s.quantiseBlock) := by
  refine (runCommand_running _ _ _ herr).trans (congrArg _ ?_)
  rw [encbStages, runStages_cscf_block _ _ hden, runStages_ok _ _ _ _ _ (stageBtf_eq _)]
  exact runStages_ok _ _ _ _ _ (stageQnt_of_fits (lumaOverflows_block s.px hden))

theorem exec_encb_overflows (hden : s.den ≠ 0) {i : BitVec 3} (h : firstUnfit s.quantiseBlock.q = some i) :
    exec .encb s = .next (s.quantiseBlock.withFaultRecord 1 0x10 0x07 i) := by
  rw [exec_encb_quantises herr hden, runStages_error _ _ _ _ _ (stagePack_error h)]
  rfl

theorem exec_encb_encodes (hden : s.den ≠ 0) (h : firstUnfit s.quantiseBlock.q = none) :
    let w := packed s.quantiseBlock.q
    exec .encb s = .next ((s.quantiseBlock.setW w).oPush (w.extractLsb' 24 8) (w.extractLsb' 16 8)
      (w.extractLsb' 8 8) (w.extractLsb' 0 8)) := by
  rw [exec_encb_quantises herr hden, runStages_ok _ _ _ _ _ (stagePack_of_fits h)]
  rfl

end encb

/-- Settles O29: CSCF 0 faults on DEN = 0, QNT never does, and PACK faults when luma does not fit its field. -/
theorem encbEncodesBlockOrFaults : Obligations.EncbEncodesBlockOrFaults := by
  intro s herr
  refine ⟨by decide, exec_encb_badDenominator herr, fun hden hluma => ?_, fun hden hlow hhigh => ?_⟩
  · exact exec_encb_overflows herr hden ((firstUnfit_block s hden).trans (if_neg fun ⟨hlow, hhigh⟩ =>
      hluma.elim hlow.not_gt hhigh.not_gt))
  · exact exec_encb_encodes herr hden ((firstUnfit_block s hden).trans (if_pos ⟨hlow, hhigh⟩))

/-- What the stages of DECB up to BTI leave when IFIFO holds these four bytes and `rest`
(spec/46_composite_system.md R204). -/
def State.dequantiseBlock (s : State) (b0 b1 b2 b3 : Byte) (rest : List Byte) : State :=
  let w := wordOfBytes b0 b1 b2 b3
  let cf := dequantised s.table (unpacked w)
  ((((s.setIfifo rest).setW w).setQ (unpacked w)).setCf cf).setCs (inverseBlock cf)

section decb

variable {s : State} (herr : s.status.err = false)
include herr

theorem exec_decb_underrun (h : s.ififo.length < 4) :
    exec .decb s = .next (s.withFaultRecord 4 0x11 0x0A 0) :=
  (runCommand_running _ _ _ herr).trans
    (congrArg _ (runStages_error _ _ _ _ _ (stageDes_underrun h)))

variable {b0 b1 b2 b3 : Byte} {rest : List Byte} (h : s.ififo = b0 :: b1 :: b2 :: b3 :: rest)
include h

/-- With four bytes in IFIFO the stages of DECB up to BTI complete. -/
theorem exec_decb_dequantises :
    exec .decb s = .next (runStages 0x11 [(0x02, stageCsci .tl), (0x02, stageCsci .tr), (0x02, stageCsci .bl),
      (0x02, stageCsci .br)] (s.dequantiseBlock b0 b1 b2 b3 rest)) := by
  refine (runCommand_running _ _ _ herr).trans (congrArg _ ?_)
  rw [decbStages, runStages_ok _ _ _ _ _ (stageDes_takes h), runStages_ok _ _ _ _ _ (stageUnpk_eq _),
    runStages_ok _ _ _ _ _ (stageDqn_unpacked _ _), runStages_ok _ _ _ _ _ (stageBti_eq _)]
  rfl

theorem exec_decb_badDenominator (hden : s.den = 0) :
    exec .decb s = .next ((s.dequantiseBlock b0 b1 b2 b3 rest).withFaultRecord 2 0x11 0x02 0) :=
  (exec_decb_dequantises herr h).trans
    (congrArg _ (runStages_error _ _ _ _ _
      (stageCsci_error .tl (s := s.dequantiseBlock b0 b1 b2 b3 rest) hden)))

theorem exec_decb_decodes (hden : s.den ≠ 0) :
    let t := s.dequantiseBlock b0 b1 b2 b3 rest
    exec .decb s = .next ((t.setPx (blockPixels t.cs s.den)).setStatus
      (s.status.noteClamp (blockClamps t.cs s.den))) :=
  (exec_decb_dequantises herr h).trans (congrArg _ (runStages_csci_block _ hden))

end decb

/-- Settles O30: DES faults on a short stream and CSCI 0 on DEN = 0; the stages between them cannot fault. -/
theorem decbDecodesBlockOrFaults : Obligations.DecbDecodesBlockOrFaults := by
  intro s herr
  refine ⟨by decide, exec_decb_underrun herr, fun b0 b1 b2 b3 rest h =>
    ⟨exec_decb_badDenominator herr h, fun hden => ?_⟩⟩
  rw [exec_decb_decodes herr h hden]
  simp only [Status.noteClamp, blockClamps, ← Bool.or_assoc]
  rfl

/-! #### A composite command and its sequence of single commands (R205) -/

/-- The command `i` is the single stage `e` under that stage's opcode, and `e` completes with ERR as it was. -/
structure RunsStage (i : Instr) (e : Byte × (State → Except Raise State)) : Prop where
  exec_eq : exec i = runCommand e.1 [e]
  keeps_err : ∀ {s t}, e.2 s = .ok t → t.status.err = s.status.err

/-- The commands of ENCODE run the stages of ENCB (spec/30_encoding.md R106). -/
theorem encode_runs_encbStages : List.Forall₂ RunsStage Script.encode encbStages := by
  have hcscf (k : Pos) : RunsStage (.cscf k) (0x01, stageCscf k) :=
    ⟨rfl, fun h => by rw [(stageCscf_ok h).2, State.setCs_status]⟩
  exact .cons (hcscf _) <| .cons (hcscf _) <| .cons (hcscf _) <| .cons (hcscf _) <|
    .cons ⟨rfl, fun h => by rw [stageBtf_ok h, State.setCf_status]⟩ <|
    .cons ⟨rfl, fun h => by rw [stageQnt_ok h, State.setQ_status]⟩ <|
    .cons ⟨rfl, fun h => by rw [(stagePack_ok h).2, State.setW_status]⟩ <|
    .cons ⟨rfl, fun h => by rw [stageSer_ok h, State.oPush_status]⟩ .nil

/-- The commands of DECODE run the stages of DECB (spec/30_encoding.md R106). -/
theorem decode_runs_decbStages : List.Forall₂ RunsStage Script.decode decbStages := by
  have hcsci (k : Pos) : RunsStage (.csci k) (0x02, stageCsci k) :=
    ⟨rfl, fun h => by rw [(stageCsci_ok h).2, State.setStatus_status, Status.noteClamp]⟩
  have hdes : RunsStage .des (0x0A, stageDes) := ⟨rfl, fun h => by
    obtain ⟨_, _, _, _, _, -, rfl⟩ := stageDes_ok h
    rfl⟩
  exact .cons hdes <|
    .cons ⟨rfl, fun h => by rw [stageUnpk_ok h, State.setQ_status]⟩ <|
    .cons ⟨rfl, fun h => by rw [(stageDqn_ok h).2.2, State.setCf_status]⟩ <|
    .cons ⟨rfl, fun h => by rw [stageBti_ok h, State.setCs_status]⟩ <|
    .cons (hcsci _) <| .cons (hcsci _) <| .cons (hcsci _) <| .cons (hcsci _) .nil

/-- `t` with the opcode `eop` in EOP if `t` holds a fault (spec/46_composite_system.md R205). -/
def State.withFaultEop (t : State) (eop : Byte) : State :=
  { t with status := { t.status with eop := if t.status.err = true then eop else t.status.eop } }

theorem State.withFaultEop_of_running {t : State} (herr : t.status.err = false) (eop : Byte) :
    t.withFaultEop eop = t := by
  rw [State.withFaultEop, if_neg (Bool.eq_false_iff.mp herr)]

section sequences

variable {is : List Instr} {stages : List (Byte × (State → Except Raise State))}
  (hruns : List.Forall₂ RunsStage is stages) {s : State}
include hruns

/-- The abort state ignores the whole sequence. -/
theorem execAll_aborted (herr : s.status.err = true) : execAll is s = .next s := by
  induction hruns with
  | nil => rfl
  | cons hi _ ih =>
    have hexec := congrFun hi.exec_eq s
    rw [runCommand_aborted _ _ _ herr] at hexec
    rw [execAll_cons hexec, ih]

/-- Outside the abort state the stages of one command and the sequence of single commands differ in the EOP of
a fault only: after the stage that faults, the one stops and the other is ignored. -/
theorem execAll_eq_runStages (eop : Byte) (herr : s.status.err = false) :
    ∃ t, execAll is s = .next t ∧ (t.status.err = true → t.status.eop = t.status.estage) ∧
      runStages eop stages s = t.withFaultEop eop := by
  induction hruns generalizing s with
  | nil => exact ⟨s, rfl, by simp [herr], (State.withFaultEop_of_running herr eop).symm⟩
  | @cons i e _ _ hi hrest ih =>
    have hexec := congrFun hi.exec_eq s
    cases hop : e.2 s with
    | error r =>
      rw [runCommand_one_error herr hop] at hexec
      exact ⟨_, (execAll_cons hexec _).trans (execAll_aborted hrest rfl), fun _ => rfl,
        runStages_error _ _ _ _ _ hop⟩
    | ok u =>
      rw [runCommand_one_ok herr hop] at hexec
      rw [execAll_cons hexec, runStages_ok _ _ _ _ _ hop]
      exact ih ((hi.keeps_err hop).trans herr)

/-- R205 for a command made of the stages of the sequence, from every state. -/
theorem execAll_eq_composite {c : Instr} (hc : exec c = runCommand (opcodeOf c) stages) (s : State) :
    ∃ t, execAll is s = .next t ∧
      (s.status.err = false → t.status.err = true → t.status.eop = t.status.estage) ∧
      exec c s = .next { t with status := { t.status with
        eop := if s.status.err = false ∧ t.status.err = true then opcodeOf c else t.status.eop } } := by
  rw [hc]
  cases herr : s.status.err with
  | true =>
    rw [runCommand_aborted _ _ _ herr]
    exact ⟨s, execAll_aborted hruns herr, by simp, by simp⟩
  | false =>
    obtain ⟨t, hseq, heop, hstages⟩ := execAll_eq_runStages hruns (opcodeOf c) herr
    rw [runCommand_running _ _ _ herr, hstages]
    exact ⟨t, hseq, fun _ => heop, by simp [State.withFaultEop]⟩

end sequences

/-- Settles O54: both composites run the stages of their sequences. -/
theorem compositesEqualTheirSequences : Obligations.CompositesEqualTheirSequences := fun s =>
  ⟨execAll_eq_composite encode_runs_encbStages (c := .encb) rfl s,
    execAll_eq_composite decode_runs_decbStages (c := .decb) rfl s⟩

/-! #### ENCB on pixels in range (R208) -/

/-- With channels up to DEN the luma field fits, so PACK in ENCB does not fault (spec/43_quantize.md R171 (e)). -/
theorem firstUnfit_block_of_inRange {s : State} (hrange : s.PixelsInRange) :
    firstUnfit s.quantiseBlock.q = none := by
  obtain ⟨hden, hle⟩ := hrange
  obtain ⟨hlow, hhigh⟩ := forwardBlock_a_bounds fun k c => normalise_le_one (hle k c)
  refine (firstUnfit_block s hden).trans (if_pos ?_)
  exact ⟨le_rnd (by push_cast; linarith) le_rfl, rnd_le (by push_cast; linarith) (by decide)⟩

/-- PACK faults on no field of `q` only if all fit. -/
theorem Quant.fits_of_firstUnfit {q : Quant} (h : firstUnfit q = none) : q.Fits := by
  rw [firstUnfit_eq] at h
  split_ifs at h with ha hb hc hd hpb hpr
  exact ⟨ha, hb, hc, hd, hpb, hpr⟩

/-- Bits 22:8 of the packed word are the fields b, c and d (spec/30_encoding.md R100). -/
theorem Quant.Fits.packed_details_eq_zero {q : Quant} (h : q.Fits) (hb : q.b.toInt = 0) (hc : q.c.toInt = 0)
    (hd : q.d.toInt = 0) : (packed q).extractLsb' 8 15 = 0 := by
  have hpacked := h.packed_toNat
  obtain ⟨-, -, -, -, hpb, hpr⟩ := h
  refine BitVec.eq_of_toNat_eq ((BitVec.extractLsb'_toNat ..).trans ?_)
  change _ = 0
  omega

/-- Four equal samples have no details (spec/46_composite_system.md R208 (b)). -/
theorem quantised_details_of_equal (t : ChromaTable) (x : Sample) :
    (quantised t (forwardBlock (Quad.all x))).b.toInt = 0 ∧
      (quantised t (forwardBlock (Quad.all x))).c.toInt = 0 ∧
      (quantised t (forwardBlock (Quad.all x))).d.toInt = 0 := by
  have hzero : (BitVec.ofInt 32 (rnd (clampDetail 0 * 50))).toInt = 0 := by
    rw [clampDetail_of_bounded ⟨by norm_num, by norm_num⟩, zero_mul, ← Int.cast_zero, rnd_intCast]
    rfl
  have hsum (y : QNum) : (y + y - y - y) / 4 = 0 ∧ (y - y + y - y) / 4 = 0 ∧ (y - y - y + y) / 4 = 0 := by
    refine ⟨?_, ?_, ?_⟩ <;> ring
  obtain ⟨hb, hc, hd⟩ := hsum x.y
  simp only [quantised, forwardBlock, Quad.all, hb, hc, hd, hzero, and_self]

/-- Settles O56: PACK does not fault in range, and equal pixels have equal samples. -/
theorem encbNeverFaultsInRange : Obligations.EncbNeverFaultsInRange := by
  intro s herr hrange
  have hfits := firstUnfit_block_of_inRange hrange
  refine ⟨_, exec_encb_encodes herr hrange.1 hfits, rfl, rfl, fun hequal => ?_⟩
  have hsamples : blockSamples s.px s.den = Quad.all (forwardSample s.px.tl s.den) :=
    Quad.ext_get fun k => by
      rw [Quad.get_all, ← hequal k]
      cases k <;> rfl
  obtain ⟨hb, hc, hd⟩ := quantised_details_of_equal s.table (forwardSample s.px.tl s.den)
  rw [← hsamples] at hb hc hd
  exact (Quant.fits_of_firstUnfit hfits).packed_details_eq_zero hb hc hd

end Sys2Proof.Machine

/-! ### Exceptions (spec/60_exceptions.md R220 to R226) -/

namespace Sys2Proof.Machine

open Sys2Proof

/-! #### The abort state (R224, R226) -/

/-- Settles O7: every instruction but RST is a command, which the abort state ignores. -/
theorem instructionsIgnoredInAbortState : Obligations.InstructionsIgnoredInAbortState := by
  intro i s herr hi
  cases i with
  | rst => exact absurd rfl hi
  | _ => exact runCommand_aborted _ _ _ herr

/-- In the abort state a word written to CMD is ignored, legal or not, unless it is that of RST. -/
theorem dispatchCommand_aborted {v : Word} {s : State} (herr : s.status.err = true) (hv : v ≠ encode .rst) :
    dispatchCommand exec v s = .next s := by
  unfold dispatchCommand
  split
  next i hi =>
    have hne : i ≠ .rst := fun hrst => hv (hrst ▸ eq_encode_of_decode hi)
    exact instructionsIgnoredInAbortState i s herr hne
  next => exact if_pos herr

/-- Settles O6: one equation of `step` for each transaction, those of the writes at ERR = 1. -/
theorem abortStateIgnoresAllButReset : Obligations.AbortStateIgnoresAllButReset := by
  intro s rest herr
  refine ⟨fun v hv hs => ?ignored, fun hs => ?reset, fun addr v r hr hc hs => ?write,
    fun addr r hr hs => step_read_mapped hs hr, fun bytes hs => step_feed hs, fun n hn hs => ?drain⟩
  case ignored => rw [step_write_cmd hs, dispatchCommand_aborted (s := s.answered rest .okay) herr hv]
  case reset =>
    rw [stepRunsDecodedInstruction s _ rest .rst hs (decode_encode .rst), exec_rst,
      State.resetCore_eq_resetBeside]
  case write => rw [step_write_mapped hs hr hc, if_pos herr]
  case drain => rw [step_drain hs, if_pos hn]

/-- A bus read changes the host's record only. -/
theorem busRead_eq_answer (addr : Nat) (s : State) : ∃ a, busRead addr s = s.answer a := by
  unfold busRead
  split <;> exact ⟨_, rfl⟩

/-- Nothing of the core differs between `s` and `t` but that bytes were fed to IFIFO or drained from OFIFO:
what R224 and R226 allow in the abort state. -/
abbrev State.SameButStreams (s t : State) : Prop :=
  t.px = s.px ∧ t.q = s.q ∧ t.w = s.w ∧ t.cs = s.cs ∧ t.cf = s.cf ∧ t.den = s.den ∧ t.status = s.status ∧
    (∃ fed, t.ififo = s.ififo ++ fed) ∧ (∃ drained, s.ofifo = drained ++ t.ofifo)

theorem State.SameCore.sameButStreams {s t : State} (h : s.SameCore t) : s.SameButStreams t := by
  obtain ⟨hpx, hq, hw, hcs, hcf, hden, hstatus, hififo, hofifo⟩ := h
  exact ⟨hpx, hq, hw, hcs, hcf, hden, hstatus, ⟨[], by simp [hififo]⟩, ⟨[], by simp [hofifo]⟩⟩

/-- Taking a transaction off the script and answering it is the host's record only. -/
theorem State.sameCore_answer (s : State) (rest : List Transaction) (a : Answer) :
    s.SameCore ((s.setScript rest).answer a) :=
  ⟨rfl, rfl, rfl, rfl, rfl, rfl, rfl, rfl, rfl⟩

/-- Settles O33: a step that is no reset only answers, feeds or drains in the abort state; the illegal command
and the register write of `StepCase` need ERR = 0. -/
theorem firstFaultStaysUntilReset : Obligations.FirstFaultStaysUntilReset := by
  intro s t herr h
  have answered (rest : List Transaction) (a : Answer) : s.SameButStreams ((s.setScript rest).answer a) :=
    (s.sameCore_answer rest a).sameButStreams
  cases step_cases h with
  | idle => exact .inr (State.SameCore.sameButStreams ⟨rfl, rfl, rfl, rfl, rfl, rfl, rfl, rfl, rfl⟩)
  | read addr rest =>
    obtain ⟨a, ha⟩ := busRead_eq_answer addr (s.setScript rest)
    exact .inr (ha ▸ answered rest a)
  | writeUnmapped addr v rest => exact .inr (answered rest _)
  | command addr v rest i _ hs hr hi he =>
    by_cases hrst : i = .rst
    · subst hrst
      obtain rfl := eq_zero_of_regAt_eq_cmd hr
      obtain rfl : v = encode .rst := eq_encode_of_decode hi
      cases he
      exact .inl ⟨s.sameCore_resetCore _, rest, .inr hs⟩
    · rw [instructionsIgnoredInAbortState i ((s.setScript rest).answer .okay) herr hrst] at he
      cases he
      exact .inr (answered rest _)
  | illegal addr v rest e hs hr hi ha => exact absurd herr (Bool.eq_false_iff.mp ha)
  | ignored addr v rest => exact .inr (answered rest _)
  | writeReg addr v rest r hs hr hc ha => exact absurd herr (Bool.eq_false_iff.mp ha)
  | feed bytes rest => exact .inr ⟨rfl, rfl, rfl, rfl, rfl, rfl, rfl, ⟨bytes, rfl⟩, ⟨[], rfl⟩⟩
  | drain n rest =>
    exact .inr ⟨rfl, rfl, rfl, rfl, rfl, rfl, rfl, ⟨[], (List.append_nil _).symm⟩,
      ⟨s.ofifo.take n, (List.take_append_drop n s.ofifo).symm⟩⟩
  | hreset rest hs => exact .inl ⟨s.sameCore_resetCore _, rest, .inl hs⟩

/-! #### Illegal commands (R221) -/

/-- The check of R94 as the three conditions it is made of. -/
theorem Command.wellFormed_iff (c : Command) :
    c.wellFormed = true ↔ c.rsv = 0 ∧ c.opc ∈ legalOpcodes ∧ (c.opc = 0x01 ∨ c.opc = 0x02 ∨ c.k = 0) := by
  simp only [Command.wellFormed, Command.reservedClear, Command.opcodeKnown, Command.kAllowed, indexedOpcodes,
    Bool.and_eq_true, Bool.or_eq_true, beq_iff_eq, List.contains_iff_mem, List.mem_cons, List.not_mem_nil,
    or_false]
  tauto

/-- The decoder rejects every word that fails the check of R94. -/
theorem exists_decode_error {v : Word} (h : (Command.ofWord v).wellFormed = false) : ∃ e, decode v = .error e := by
  cases hv : decode v with
  | error e => exact ⟨e, rfl⟩
  | ok i =>
    have hlegal := (Command.wellFormed_iff _).mpr ((Command.exists_decode_iff _).mp ⟨i, hv⟩)
    exact absurd hlegal (Bool.eq_false_iff.mp h)

/-- Settles O5: dispatch of a word that does not decode takes the fault when ERR = 0. -/
theorem illegalCommandIsRecorded : Obligations.IllegalCommandIsRecorded := by
  intro s v rest hs herr hv
  obtain ⟨e, he⟩ := exists_decode_error hv
  rw [step_write_cmd hs, dispatchCommand, he]
  exact if_neg (Bool.eq_false_iff.mp herr)

/-! #### Precise faults (R222, R223) -/

/-- A command of a sequence runs one stage, under its own opcode. -/
theorem exists_runsStage_of_mem {is : List Instr} {stages : List (Byte × (State → Except Raise State))}
    (hruns : List.Forall₂ RunsStage is stages) (hop : is.map opcodeOf = stages.map Prod.fst)
    {i : Instr} (hi : i ∈ is) : ∃ op, RunsStage i (opcodeOf i, op) := by
  induction hruns with
  | nil => cases hi
  | @cons j e _ _ hj _ ih =>
    obtain ⟨hhead, htail⟩ := List.cons.inj hop
    obtain rfl | hi := List.mem_cons.mp hi
    · exact ⟨e.2, hhead ▸ hj⟩
    · exact ih htail hi

/-- Every instruction is a command of one stage, NOP, a composite or RST: those of one stage are the commands of
ENCODE and DECODE. -/
theorem instr_cases (i : Instr) :
    (∃ op, RunsStage i (opcodeOf i, op)) ∨ i = .nop ∨ i = .encb ∨ i = .decb ∨ i = .rst := by
  have hmem : i ∈ Script.encode ∨ i ∈ Script.decode ∨ i = .nop ∨ i = .encb ∨ i = .decb ∨ i = .rst := by
    cases i with
    | cscf k | csci k => cases k <;> decide
    | _ => decide
  obtain hi | hi | hi := hmem
  · exact .inl (exists_runsStage_of_mem encode_runs_encbStages rfl hi)
  · exact .inl (exists_runsStage_of_mem decode_runs_decbStages rfl hi)
  · exact .inr hi

section faults

variable {i : Instr} {s t : State} (herr : s.status.err = false) (h : exec i s = .next t)
  (ht : t.status.err = true)
include herr h ht

/-- A command of one stage that leaves ERR set took the fault on the state it began with, as a stage that
completes keeps ERR. -/
theorem RunsStage.eq_takeFault {op : State → Except Raise State} (hi : RunsStage i (opcodeOf i, op)) :
    ∃ r, t = s.takeFault (opcodeOf i) (opcodeOf i) r := by
  rw [hi.exec_eq] at h
  cases hop : op s with
  | ok u =>
    cases (runCommand_one_ok herr hop).symm.trans h
    have hu : t.status.err = false := (hi.keeps_err hop).trans herr
    exact absurd ht (Bool.eq_false_iff.mp hu)
  | error r =>
    cases (runCommand_one_error herr hop).symm.trans h
    exact ⟨r, rfl⟩

/-- A composite command that leaves ERR set recorded its own opcode, whichever stage raised (R223). -/
theorem eop_of_composite_fault {is : List Instr} {stages : List (Byte × (State → Except Raise State))}
    (hruns : List.Forall₂ RunsStage is stages) (hi : exec i = runCommand (opcodeOf i) stages) :
    t.status.eop = opcodeOf i := by
  obtain ⟨u, -, -, hexec⟩ := execAll_eq_composite hruns hi s
  cases hexec.symm.trans h
  exact if_pos ⟨herr, ht⟩

end faults

/-- Settles O32: a command of one stage and a composite by the lemmas above; NOP and RST leave ERR = 0. -/
theorem faultsArePrecise : Obligations.FaultsArePrecise := by
  intro i s t herr h ht
  obtain ⟨op, hi⟩ | rfl | rfl | rfl | rfl := instr_cases i
  · obtain ⟨r, rfl⟩ := hi.eq_takeFault herr h ht
    exact ⟨rfl, fun _ _ => ⟨r.cause.code, r.info, rfl⟩⟩
  · cases (nopChangesNothing.2 s).symm.trans h
    exact absurd ht (Bool.eq_false_iff.mp herr)
  · exact ⟨eop_of_composite_fault herr h ht encode_runs_encbStages rfl, fun hne => absurd rfl hne⟩
  · exact ⟨eop_of_composite_fault herr h ht decode_runs_decbStages rfl, fun _ hne => absurd rfl hne⟩
  · cases h
    cases ht

end Sys2Proof.Machine
